-- ==== Sys2Proof/Word.lean ====
section
/-! DEFINITION. The two kinds of number of the machine (spec/00_scope.md rules R6, R7).

`Val`, a data value (a register, an operand byte, a store cell), is an unbounded natural number with no
clamp and no wrap (DESIGN CHOICE of the spec, D1; log entry 3): the model writes its type as `Nat`. -/

namespace Sys2Proof

/-- `Addr`: an address, `pc` or `sp`. 16 bits (rules R6, R7). -/
abbrev Addr := BitVec 16

end Sys2Proof
end

