-- ==== Sys2Proof/Config.lean ====
section
/-! DEFINITION. What the host fixes for a run (spec/00_scope.md rule R6) and the free values. -/

namespace Sys2Proof

/-- `OPCODE_MAP` (rules R6, R74, R75): the opcode value of each of the eighteen rows of the handler
table. An OPEN parameter of the machine: State carries one, and every statement about a state holds for
whatever map the state carries. -/
structure OpcodeMap where
  ldaImm : Nat
  lda    : Nat
  sta    : Nat
  txa    : Nat
  tya    : Nat
  adc    : Nat
  ldxImm : Nat
  ldx    : Nat
  tax    : Nat
  ldyImm : Nat
  ldy    : Nat
  tay    : Nat
  nop    : Nat
  brk    : Nat
  cpx    : Nat
  bne    : Nat
  inc    : Nat
  sys    : Nat
deriving DecidableEq, Repr

/-- FREE VALUE (log entry 22). The value read for `decodedByte1` at pulse number `n` by a handler's
action when nothing has been latched, which happens in no run (rule R34) and for which the spec states
no value. It has no body: nothing can be proved about it. -/
opaque Config.unlatchedOperand : (n : Nat) → Nat

/-- FREE VALUE (log entry 16). What the host numbered `source` answers, at pulse number `n`, to whether
the interrupt input is non-empty: the draw per pulse of rules R6 and R38 (D13, U6). It has no body:
nothing can be proved about it, so a run's answers may be any endless sequence. -/
opaque Config.irqDraw : (source n : Nat) → Bool

end Sys2Proof
end

