-- ==== Sys2Proof/Syntax.lean ====
section
/-! DEFINITION. The eighteen rows of the opcode handler table (spec/30_encoding.md rule R74, spec/opcode_table.json). -/

namespace Sys2Proof

/-- An instruction as the controller dispatches it: a row of the handler table, which the whole opcode
cell selects (rule R73: no sub-fields). Operands are no part of the row: the handler reads them into the
operand latch one cell per pulse (rules R70, R95, R97, R98), so an instruction together with its operand
cells is the structure `Code` of Sys2Proof/WellFormed.lean. Constructors in the table's order. -/
inductive Instr where
  | ldaImm   -- LDA#  row 1
  | lda      -- LDA   row 2
  | sta      -- STA   row 3
  | txa      -- TXA   row 4
  | tya      -- TYA   row 5
  | adc      -- ADC   row 6
  | ldxImm   -- LDX#  row 7
  | ldx      -- LDX   row 8
  | tax      -- TAX   row 9
  | ldyImm   -- LDY#  row 10
  | ldy      -- LDY   row 11
  | tay      -- TAY   row 12
  | nop      -- NOP   row 13
  | brk      -- BRK   row 14
  | cpx      -- CPX   row 15
  | bne      -- BNE   row 16
  | inc      -- INC   row 17
  | sys      -- SYS   row 18
deriving DecidableEq, Repr

end Sys2Proof
end

