-- ==== Sys2Proof/WellFormed.lean ====
section
/-! DEFINITION. Formats, instructions with their operand cells, and the two well-formedness checks:
of an instruction's operand cells and of an opcode map. -/

namespace Sys2Proof

/-- The four instruction formats of rule R71. -/
inductive Format where
  | imp   -- no operand
  | reg   -- register copy, no operand cell
  | imm   -- one operand cell
  | abs   -- two operand cells, low byte first
deriving DecidableEq, Repr

/-- How many operand cells follow the opcode cell (rules R70, R71). -/
def Format.operandCells : Format → Nat
  | .imp => 0
  | .reg => 0
  | .imm => 1
  | .abs => 2

/-- The format of each row (rules R71, R74). -/
def Instr.format : Instr → Format
  | .ldaImm => .imm
  | .lda    => .abs
  | .sta    => .abs
  | .txa    => .reg
  | .tya    => .reg
  | .adc    => .abs
  | .ldxImm => .imm
  | .ldx    => .abs
  | .tax    => .reg
  | .ldyImm => .imm
  | .ldy    => .abs
  | .tay    => .reg
  | .nop    => .imp
  | .brk    => .imp
  | .cpx    => .abs
  | .bne    => .imm
  | .inc    => .abs
  | .sys    => .reg

/-- The length in cells, opcode cell included (rules R70, R74). -/
def Instr.length (i : Instr) : Nat := 1 + i.format.operandCells

/-- An instruction with its operand cells, as it stands in the store: `k` for an IMM row, `lo` and `hi`
in this order for an ABS row (rule R71). -/
structure Code where
  row      : Instr
  operands : List Nat
deriving DecidableEq, Repr

/-- An instruction is well formed when it has as many operand cells as its format says; the cells'
values are never checked (rule R77). -/
def Code.wf (c : Code) : Bool := c.operands.length == c.row.format.operandCells

/-- The eighteen values of a map, in the table's order. -/
def OpcodeMap.values (m : OpcodeMap) : List Nat :=
  [m.ldaImm, m.lda, m.sta, m.txa, m.tya, m.adc, m.ldxImm, m.ldx, m.tax, m.ldyImm, m.ldy, m.tay,
   m.nop, m.brk, m.cpx, m.bne, m.inc, m.sys]

/-- A map is well formed when its eighteen values are pairwise distinct (rule R75). -/
def OpcodeMap.wf (m : OpcodeMap) : Bool := decide m.values.Nodup

end Sys2Proof
end

