-- ==== Sys2Proof/Decode.lean ====
section
/-! DEFINITION. Decoding the opcode cell and an instruction's cells, and the encoder
(spec/30_encoding.md rules R70 to R77). -/

namespace Sys2Proof

/-- The eighteen rows in the table's order (rule R74). -/
def Instr.all : List Instr :=
  [.ldaImm, .lda, .sta, .txa, .tya, .adc, .ldxImm, .ldx, .tax, .ldyImm, .ldy, .tay,
   .nop, .brk, .cpx, .bne, .inc, .sys]

/-- The default assignment of rule R74 (PRESUMED: the spec's general knowledge, G2 and D10; log
entry 2). -/
def OpcodeMap.default : OpcodeMap where
  ldaImm := 0xA9
  lda    := 0xAD
  sta    := 0x8D
  txa    := 0x8A
  tya    := 0x98
  adc    := 0x6D
  ldxImm := 0xA2
  ldx    := 0xAE
  tax    := 0xAA
  ldyImm := 0xA0
  ldy    := 0xAC
  tay    := 0xA8
  nop    := 0xEA
  brk    := 0x00
  cpx    := 0xEC
  bne    := 0xD0
  inc    := 0xEE
  sys    := 0xFF

/-- The opcode value a map gives a row. -/
def OpcodeMap.code (m : OpcodeMap) : Instr → Nat
  | .ldaImm => m.ldaImm
  | .lda    => m.lda
  | .sta    => m.sta
  | .txa    => m.txa
  | .tya    => m.tya
  | .adc    => m.adc
  | .ldxImm => m.ldxImm
  | .ldx    => m.ldx
  | .tax    => m.tax
  | .ldyImm => m.ldyImm
  | .ldy    => m.ldy
  | .tay    => m.tay
  | .nop    => m.nop
  | .brk    => m.brk
  | .cpx    => m.cpx
  | .bne    => m.bne
  | .inc    => m.inc
  | .sys    => m.sys

/-- Looking an opcode value up in the handler table (rules R73, R75): the row whose opcode it is, none
for an illegal opcode (rule R76). A map that is not well formed, which rule R75 excludes, yields the
first such row (log entry 23). -/
def OpcodeMap.lookup (m : OpcodeMap) (v : Nat) : Option Instr :=
  Instr.all.find? (fun i => m.code i == v)

/-- What decoding a list of cells answers: the instruction with the cells left over, or a rejection by
name. -/
inductive DecodeResult where
  /-- The instruction and the rest of the cells. -/
  | ok (c : Code) (rest : List Nat)
  /-- The opcode cell holds no key of the map (rule R76). -/
  | illegalOpcode (v : Nat)
  /-- Fewer operand cells than the row's format needs. -/
  | truncated (row : Instr)
  /-- No cell at all. -/
  | noCells
deriving DecidableEq, Repr

/-- Decoding a list of cells under a map: the row is known from the opcode cell alone, and the operand
cells are taken as they are (rules R70 to R72, R75, R77). Total. -/
def decode (m : OpcodeMap) : List Nat → DecodeResult
  | [] => .noCells
  | v :: rest =>
    match m.lookup v with
    | none => .illegalOpcode v
    | some i =>
      match i.format, rest with
      | .imp, cells => .ok ⟨i, []⟩ cells
      | .reg, cells => .ok ⟨i, []⟩ cells
      | .imm, k :: cells => .ok ⟨i, [k]⟩ cells
      | .imm, [] => .truncated i
      | .abs, lo :: hi :: cells => .ok ⟨i, [lo, hi]⟩ cells
      | .abs, [_] => .truncated i
      | .abs, [] => .truncated i

/-- The cells of an instruction under a map: the opcode cell, then the operand cells, low address byte
first (rules R71, R74). -/
def encode (m : OpcodeMap) (c : Code) : List Nat := m.code c.row :: c.operands

/-- The three cells (the longest instruction) that hold an instruction whose table bits are `w`, one
byte a cell, the first at the lowest address; every bit from `nbits` up is 0. -/
def tableCells (nbits w : Nat) : List Nat :=
  let bits := w % 2 ^ nbits
  [bits % 256, bits / 256 % 256, bits / 65536 % 256]

/-- The instruction the decoder reads from a word of the opcode table, under the default map, whose
values the table holds. -/
def decodeTableWord (nbits w : Nat) : Option Instr :=
  match decode OpcodeMap.default (tableCells nbits w) with
  | .ok c _ => some c.row
  | .illegalOpcode _ => none
  | .truncated _ => none
  | .noCells => none

end Sys2Proof
end

