-- ==== Sys2Proof/Machine/State.lean ====
section
/-! DEFINITION. The machine's state (spec/10_state.md), the reasons a step can stop, launch and reset. -/

namespace Sys2Proof.Machine

/-- The values of the status-flag register `sReg`: one active flag or none, not a bitmask (rules R7,
R27, R28). -/
inductive Flag where
  | none  -- no flag asserted
  | Z     -- zero flag, 1
  | I     -- interrupt-pending, 2
  | B     -- break, 4
  | V     -- overflow, 6
deriving DecidableEq, Repr

/-- The records of the report channel (rule R190). The explicit break makes none. -/
inductive Report where
  /-- A handler invoked with a step outside 2..N (rule R102). -/
  | stepRangeError (ir : Nat) (step : Nat)
  /-- `Decode(0)` without a value (rule R96). -/
  | missingDecodeInput
  /-- ADC's sum exceeds 0xFFFF (rule R150). -/
  | overflowWarning (acc : Nat)
  /-- `ir` has no handler (rule R101). -/
  | illegalOpcode (ir : Nat)
  /-- SYS with a mode other than 1 and 2 (rule R174). -/
  | unsupportedSys (xReg : Nat)
deriving DecidableEq, Repr

/-- A console event (rules R11, R176). -/
inductive ConsoleEvent where
  | dec (n : Nat)
  | chr (n : Nat)
deriving DecidableEq, Repr

/-- The one message of the shutdown channel; it carries no argument (rules R37, R195). -/
inductive ShutdownRequest where
  | requestShutdown
deriving DecidableEq, Repr

/-- One entry of the Trace Log (rules R36, R99). -/
structure TraceEntry where
  cycle        : Nat
  pc           : Addr
  sp           : Addr
  ir           : Nat
  decodedByte1 : Option Nat
  decodedByte2 : Option Nat
  acc          : Nat
  xReg         : Nat
  yReg         : Nat
  sReg         : Flag
  step         : Nat
deriving DecidableEq, Repr

/-- One listed cell of the store: its address and its value. Not the host's byte cell, because a cell
holds a value of any size (rule R51, C4; log entry 3). -/
abbrev Cell := Nat × Nat

/-- The store (rules R50, R51): the cells that do not read as `unlistedCell`, addresses strictly
rising (`Memory.wf`, Machine/Ops.lean). -/
abbrev Memory := List Cell

/-- Everything the spec gives the machine (rule R20; the store, rule R51; the output channels, rule
R37; the host's inputs and parameters, rules R6 and R38). -/
structure State where
  /-- Program counter (R21). -/
  pc           : Addr
  /-- Address pointer (R22). -/
  sp           : Addr
  /-- Instruction register (R23). -/
  ir           : Nat
  /-- Index register (R24). -/
  xReg         : Nat
  /-- Index register (R25). -/
  yReg         : Nat
  /-- Accumulator (R26). -/
  acc          : Nat
  /-- Status-flag register (R27). -/
  sReg         : Flag
  /-- Position within the current instruction (R31). -/
  step         : Nat
  /-- First byte of the operand latch (R32). -/
  decodedByte1 : Option Nat
  /-- Second byte of the operand latch (R32). -/
  decodedByte2 : Option Nat
  /-- Set by the interrupt check, cleared by the completion reset (R33). -/
  opComplete   : Bool
  /-- Pulses since reset (R30). -/
  cycle        : Nat
  /-- Trace Log, oldest entry first (R36). -/
  trace        : List TraceEntry
  /-- The shutdown request has been sent (R35). -/
  halted       : Bool
  /-- Console channel, oldest event first (R37). -/
  console      : List ConsoleEvent
  /-- Report channel, oldest record first (R37). -/
  reports      : List Report
  /-- Shutdown channel (R37). -/
  shutdown     : List ShutdownRequest
  /-- The model's own: the traces handed to the host at halt in diagnostic mode (R105; log entry 21). -/
  traceDumps   : List (List TraceEntry)
  /-- The store (R51). -/
  mem          : Memory
  /-- Host input: was the interrupt input non-empty at the latest pulse; the start of each pulse writes
  it before anything reads it (R38; log entry 16). -/
  irqPending   : Bool
  /-- The model's own: the host's answers at the next pulses, as far as they are given, next pulse
  first; after them every answer is a free draw (log entry 16). -/
  irqFuture    : List Bool
  /-- The model's own: the number of the host whose free draws answer; nothing writes it (log entry 16). -/
  irqSource    : Nat
  /-- Launch parameter `OPCODE_MAP` (R6, R74); nothing writes it (log entry 2). -/
  opcodeMap    : OpcodeMap
  /-- Host configuration `DIAG` (R6); nothing writes it (log entry 21). -/
  diag         : Bool
deriving DecidableEq, Repr

/-- There is no fault: the hardware has no trap, and no store access fails (rules R52, R197). No
constructor, so no step can end in one. -/
inductive Fault where
deriving DecidableEq, Repr

/-- Why a step is refused. -/
inductive Refusal where
  /-- Raised by an arm of `exec` for an instruction without a meaning; no arm does. Safe. -/
  | notModelled (mnemonic : String)
  /-- Raised by `step` alone, for a pulse after the shutdown request: the spec gives the halted state no
  pulse (rules R91, R203; U8; log entry 17). Safe for a host that obeys. -/
  | pulseAfterShutdown
deriving DecidableEq, Repr

/-- What the host chooses when it starts a run (rules R6, R39, R202, R213): the parameters, the reset
draws, the store's contents and the interrupt input. -/
structure Launch where
  entryPc    : Addr
  sp         : Addr
  ir         : Nat
  xReg       : Nat
  yReg       : Nat
  acc        : Nat
  mem        : Memory
  opcodeMap  : OpcodeMap
  diag       : Bool
  irqPending : Bool
  irqFuture  : List Bool
  irqSource  : Nat
deriving DecidableEq, Repr

/-- The state after a reset with these launch values, before the first pulse (rules R39, R210). -/
def State.launch (l : Launch) : State where
  pc           := l.entryPc
  sp           := l.sp
  ir           := l.ir
  xReg         := l.xReg
  yReg         := l.yReg
  acc          := l.acc
  sReg         := .none
  step         := 0
  decodedByte1 := none
  decodedByte2 := none
  opComplete   := false
  cycle        := 0
  trace        := []
  halted       := false
  console      := []
  reports      := []
  shutdown     := []
  traceDumps   := []
  mem          := l.mem
  irqPending   := l.irqPending
  irqFuture    := l.irqFuture
  irqSource    := l.irqSource
  opcodeMap    := l.opcodeMap
  diag         := l.diag

/-- The launch values that `State.reset` takes. DESIGN CHOICE: the entry address 0x0000 (log entry 12),
0 for the registers whose reset value the spec leaves unspecified (log entry 13), nothing listed in the
store (log entry 14), a free interrupt input (log entry 16), no diagnostic mode (log entry 21).
PRESUMED: the default opcode map (log entry 2). -/
def Launch.default : Launch where
  entryPc    := 0
  sp         := 0
  ir         := 0
  xReg       := 0
  yReg       := 0
  acc        := 0
  mem        := []
  opcodeMap  := OpcodeMap.default
  diag       := false
  irqPending := false
  irqFuture  := []
  irqSource  := 0

/-- The machine right after reset (rules R39, R210), under `Launch.default`. -/
def State.reset : State := State.launch Launch.default

end Sys2Proof.Machine
end

