-- ==== Sys2Proof/Machine/Ops.lean ====
section
/-! DEFINITION. The named operations over memory, registers and channels, and the parts of the pulse
that every instruction shares (spec/20_memory.md, spec/40_pipeline.md). -/

namespace Sys2Proof.Machine

/-- What a handler or a step answers. -/
abbrev Result := Host.Outcome State Fault Refusal

/-! ### The store -/

/-- What an unlisted cell reads as. DESIGN CHOICE (log entry 14): the spec leaves the initial store to
the host. -/
def unlistedCell : Nat := 0

/-- The value of a cell, by its address as a number. -/
def Memory.read : Memory → Nat → Nat
  | [], _ => unlistedCell
  | (b, w) :: m, a => if b = a then w else Memory.read m a

/-- Storing a value unchanged (rule R51), in the canonical form: the value an unlisted cell reads as is
never listed. -/
def Memory.write : Memory → Nat → Nat → Memory
  | [], a, v => if v = unlistedCell then [] else [(a, v)]
  | (b, w) :: m, a, v =>
    if a < b then
      if v = unlistedCell then (b, w) :: m else (a, v) :: (b, w) :: m
    else if a = b then
      if v = unlistedCell then m else (a, v) :: m
    else (b, w) :: Memory.write m a v

/-- The canonical form from an address up: addresses strictly rising, below 2^16 (rule R50), and no
entry equal to what an unlisted cell reads as. -/
def Memory.wfFrom : Nat → Memory → Bool
  | _, [] => true
  | low, (a, v) :: m => decide (low ≤ a) && decide (a < 65536) && decide (v ≠ unlistedCell) && Memory.wfFrom (a + 1) m

/-- The canonical form of the store. -/
def Memory.wf (m : Memory) : Bool := Memory.wfFrom 0 m

/-- `MemRead(a, 1)` (rules R10, R51, R52). -/
def State.memRead (s : State) (a : Addr) : Nat := Memory.read s.mem a.toNat

/-- `MemWrite(a, 1, v)` (rules R10, R51, R52). -/
def State.memWrite (s : State) (a : Addr) (v : Nat) : State := { s with mem := Memory.write s.mem a.toNat v }

/-! ### Addresses -/

/-- The low 16 bits of a number (rule R8). -/
def lo16 (v : Nat) : Addr := BitVec.ofNat 16 v

/-- `pc + 1` modulo 2^16 (rules R21, R94; DESIGN CHOICE of the spec, D2; log entry 4). -/
def nextAddr (a : Addr) : Addr := lo16 (a.toNat + 1)

/-- `Compose(lo, hi)` (rule R53; DESIGN CHOICE of the spec, D3; log entry 5). -/
def compose (lo hi : Nat) : Addr := lo16 (hi * 256 + lo)

/-! ### Register and channel writes -/

/-- `pc <- a`. -/
def State.setPc (s : State) (a : Addr) : State := { s with pc := a }
/-- `sp <- a`. -/
def State.setSp (s : State) (a : Addr) : State := { s with sp := a }
/-- `ir <- v`. -/
def State.setIr (s : State) (v : Nat) : State := { s with ir := v }
/-- `xReg <- v`, whatever its size (rule R24). -/
def State.setXReg (s : State) (v : Nat) : State := { s with xReg := v }
/-- `yReg <- v`, whatever its size (rule R25). -/
def State.setYReg (s : State) (v : Nat) : State := { s with yReg := v }
/-- `acc <- v`, whatever its size (rule R26). -/
def State.setAcc (s : State) (v : Nat) : State := { s with acc := v }
/-- Asserting a flag overwrites `sReg` (rule R28; DESIGN CHOICE of the spec, D4; log entry 6). -/
def State.assertFlag (s : State) (f : Flag) : State := { s with sReg := f }
/-- `decodedByte1 <- some v` (rule R32). -/
def State.latch1 (s : State) (v : Nat) : State := { s with decodedByte1 := some v }
/-- `decodedByte2 <- some v` (rule R32). -/
def State.latch2 (s : State) (v : Nat) : State := { s with decodedByte2 := some v }
/-- `opComplete <- true` (rule R103). -/
def State.setComplete (s : State) : State := { s with opComplete := true }
/-- `report r`: one record at the end of the report channel (rules R11, R37). -/
def State.report (s : State) (r : Report) : State := { s with reports := s.reports ++ [r] }
/-- `emit e`: one event at the end of the console channel (rules R11, R37). -/
def State.emit (s : State) (e : ConsoleEvent) : State := { s with console := s.console ++ [e] }

/-! ### The parts of the pulse -/

/-- The host's answer about the interrupt input at the next pulse: the one given in `irqFuture`, or,
with none given, the free draw of that pulse's number (rule R38; D13; log entry 16). -/
def State.nextAnswer (s : State) : Bool := s.irqFuture.headD (Config.irqDraw s.irqSource (s.cycle + 1))

/-- The start of every pulse: `cycle` and `step` go up by one (rules R92, R93), and the host answers
about the interrupt input anew (rule R38; log entry 16). -/
def State.tick (s : State) : State :=
  { s with
    cycle := s.cycle + 1
    step := s.step + 1
    irqPending := s.nextAnswer
    irqFuture := s.irqFuture.tail }

/-- The address a fetch reads, `cycle` being the fetch pulse's own number: `pc` on the first pulse of
the run, `pc + 1` on every other (rule R94). -/
def State.fetchAddr (s : State) : Addr := if s.cycle = 1 then s.pc else nextAddr s.pc

/-- `Fetch()` (rule R94). -/
def State.fetch (s : State) : State := (s.setPc s.fetchAddr).setIr (s.memRead s.fetchAddr)

/-- The trace entry of a state (rules R36, R99). -/
def State.snapshot (s : State) : TraceEntry where
  cycle        := s.cycle
  pc           := s.pc
  sp           := s.sp
  ir           := s.ir
  decodedByte1 := s.decodedByte1
  decodedByte2 := s.decodedByte2
  acc          := s.acc
  xReg         := s.xReg
  yReg         := s.yReg
  sReg         := s.sReg
  step         := s.step

/-- `traceAppend()` (rule R99). -/
def State.traceAppend (s : State) : State := { s with trace := s.trace ++ [s.snapshot] }

/-- `InterruptCheck()`, the last action of every handler (rule R103): the pending flag if the input is
non-empty, the flag as it was if not, and completion. -/
def State.interruptCheck (s : State) : State :=
  (s.assertFlag (if s.irqPending then .I else s.sReg)).setComplete

/-- `IllegalOpcode()` (rule R101), the hardware's one shared operation for a fatal condition the
controller detects: nothing is saved and no control is transferred (rule R197). -/
def State.illegalOpcode (s : State) : State := (s.report (.illegalOpcode s.ir)).assertFlag .B

/-- The completion reset (rule R104). -/
def State.completionReset (s : State) : State :=
  if s.opComplete then
    { s with step := 0, decodedByte1 := none, decodedByte2 := none, opComplete := false }
  else s

/-- Sending the shutdown request (rules R35, R105, R195). -/
def State.requestShutdown (s : State) : State :=
  { s with shutdown := s.shutdown ++ [.requestShutdown], halted := true }

/-- Handing the whole Trace Log to the host, in diagnostic mode only (rule R105; D19). -/
def State.dumpTrace (s : State) : State :=
  if s.diag then { s with traceDumps := s.traceDumps ++ [s.trace] } else s

/-- The halt check at the end of every pulse but a fetch pulse (rules R105, R192). -/
def State.haltCheck (s : State) : State :=
  if s.sReg = .B then s.dumpTrace.requestShutdown else s

/-- What follows the handler, or the illegal-opcode path, in a pulse (rule R90). -/
def State.finishPulse (s : State) : State := s.traceAppend.completionReset.haltCheck

/-- A fetch pulse after its `tick` (rule R90): fetch and trace, and nothing else. -/
def State.fetchPulse (s : State) : State := s.fetch.traceAppend

/-- Applying a function to the next state of an outcome; a stop stays the stop it is. -/
def mapNext (f : State → State) : Result → Result
  | .next s => .next (f s)
  | .fault r => .fault r
  | .refused r => .refused r

end Sys2Proof.Machine
end

