-- ==== Sys2Proof/Machine/Flags.lean ====
section
/-! DEFINITION. The flag computations: flag values, ADC's overflow, CPX's zero flag, BNE's test
(spec/10_state.md rules R27 to R29, spec/42_arith_compare.md). -/

namespace Sys2Proof.Machine

/-- The number `sReg` holds for a flag (rule R27). -/
def Flag.code : Flag → Option Nat
  | .none => Option.none
  | .Z => some 1
  | .I => some 2
  | .B => some 4
  | .V => some 6

/-- `ADC_LIMIT` (rule R6). -/
def adcLimit : Nat := 0xFFFF

/-- ADC's flag rule for the sum in `acc`: above the limit `V` is asserted and a warning reported;
otherwise nothing is written (rule R150). -/
def State.overflowFlag (s : State) : State :=
  if s.acc > adcLimit then (s.assertFlag .V).report (.overflowWarning s.acc) else s

/-- CPX's flag rule: `Z` on equality; on inequality nothing is written (rule R151; DESIGN CHOICE of the
spec, D6; log entry 8). -/
def State.compareFlag (s : State) (m : Nat) : State :=
  if s.xReg = m then s.assertFlag .Z else s

/-- BNE's test: the branch is taken unless `sReg` is `Z` (rules R28, R173). -/
def State.branchTaken (s : State) : Bool := s.sReg != .Z

end Sys2Proof.Machine
end

