-- ==== Sys2Proof/Machine/Operands.lean ====
section
/-! DEFINITION. The decode calls (spec/40_pipeline.md rules R95 to R98), the step counts and the step
schedules that the handlers share (rules R102, R106). -/

namespace Sys2Proof.Machine

/-- `Decode(0, v)`, the register copy; with no value, the configuration error of rule R96, which no
handler causes (rules R95, R96; log entry 25). -/
def State.decodeReg (s : State) : Option Nat → State
  | some v => s.latch1 v
  | none => s.report .missingDecodeInput

/-- `Decode(1)`, the one-byte immediate (rule R97). -/
def State.decodeImm (s : State) : State :=
  let t := s.setPc (nextAddr s.pc)
  t.latch1 (t.memRead t.pc)

/-- `Decode(2)`, one call of the two-call address decode (rule R98; the test is on the explicit `none`,
D5; log entry 7). -/
def State.decodeAbs (s : State) : State :=
  let t := s.setPc (nextAddr s.pc)
  let v := t.memRead t.pc
  match t.decodedByte1 with
  | none => t.latch1 v
  | some lo => (t.latch2 v).setSp (compose lo v)

/-- "The value of decodedByte1" in a handler's action. With nothing latched, which happens in no run,
it is a free value (log entry 22). -/
def State.operand (s : State) : Nat :=
  match s.decodedByte1 with
  | some v => v
  | none => Config.unlatchedOperand s.cycle

/-- The step count N of each row (rules R74, R106, R217). -/
def stepCount : Instr → Nat
  | .ldaImm => 4
  | .lda    => 5
  | .sta    => 5
  | .txa    => 4
  | .tya    => 4
  | .adc    => 5
  | .ldxImm => 4
  | .ldx    => 5
  | .tax    => 4
  | .ldyImm => 4
  | .ldy    => 5
  | .tay    => 4
  | .nop    => 3
  | .brk    => 3
  | .cpx    => 5
  | .bne    => 4
  | .inc    => 7
  | .sys    => 4

/-- A handler invoked with a step outside 2..N: a report and nothing else (rule R102; log entry 25). -/
def State.stepRangeError (s : State) : State := s.report (.stepRangeError s.ir s.step)

/-- The IMP schedule of rule R106: step 2 nothing, step 3 the last action. -/
def impSchedule (last : State → State) (s : State) : Result :=
  match s.step with
  | 2 => .next s
  | 3 => .next (last s)
  | _ => .next s.stepRangeError

/-- The REG schedule of rule R106: step 2 copies the source register into the latch, step 3 acts, step
4 is the interrupt check. -/
def regSchedule (source : State → Nat) (action : State → State) (s : State) : Result :=
  match s.step with
  | 2 => .next (s.decodeReg (some (source s)))
  | 3 => .next (action s)
  | 4 => .next s.interruptCheck
  | _ => .next s.stepRangeError

/-- The IMM schedule of rule R106: step 2 decodes the operand cell, step 3 acts, step 4 is the
interrupt check. -/
def immSchedule (action : State → State) (s : State) : Result :=
  match s.step with
  | 2 => .next s.decodeImm
  | 3 => .next (action s)
  | 4 => .next s.interruptCheck
  | _ => .next s.stepRangeError

/-- The ABS schedule of rule R106: steps 2 and 3 decode the address, step 4 acts, step 5 is the
interrupt check. -/
def absSchedule (action : State → State) (s : State) : Result :=
  match s.step with
  | 2 => .next s.decodeAbs
  | 3 => .next s.decodeAbs
  | 4 => .next (action s)
  | 5 => .next s.interruptCheck
  | _ => .next s.stepRangeError

/-- The RMW schedule of rule R106: steps 2 and 3 decode the address, steps 4, 5 and 6 read, modify and
write, step 7 is the interrupt check. -/
def rmwSchedule (read modify write : State → State) (s : State) : Result :=
  match s.step with
  | 2 => .next s.decodeAbs
  | 3 => .next s.decodeAbs
  | 4 => .next (read s)
  | 5 => .next (modify s)
  | 6 => .next (write s)
  | 7 => .next s.interruptCheck
  | _ => .next s.stepRangeError

end Sys2Proof.Machine
end

