-- ==== Sys2Proof/Machine/ArithCompare.lean ====
section
/-! DEFINITION. Arithmetic, compare and increment (spec/42_arith_compare.md rules R150 to R153). -/

namespace Sys2Proof.Machine

/-- ADC (R150): the exact sum, then the overflow rule. -/
def execAdc (s : State) : Result :=
  absSchedule (fun t => (t.setAcc (t.acc + t.memRead t.sp)).overflowFlag) s

/-- CPX (R151). -/
def execCpx (s : State) : Result := absSchedule (fun t => t.compareFlag (t.memRead t.sp)) s

/-- INC (R152): read, increment and write through the accumulator, in three pulses. -/
def execInc (s : State) : Result :=
  rmwSchedule (fun t => t.setAcc (t.memRead t.sp)) (fun t => t.setAcc (t.acc + 1))
    (fun t => t.memWrite t.sp t.acc) s

end Sys2Proof.Machine
end

