-- ==== Sys2Proof/Machine/ControlSystem.lean ====
section
/-! DEFINITION. No-op, break, branch and system call (spec/43_control_system.md rules R170 to R176). -/

namespace Sys2Proof.Machine

/-- NOP (R170; step placement: DESIGN CHOICE of the spec, D7; log entry 9). -/
def execNop (s : State) : Result := impSchedule (fun t => t.interruptCheck) s

/-- BRK (R171): the interrupt check, then `B`, so that a pending interrupt cannot hide it (DESIGN CHOICE
of the spec, D7; log entry 9). The halt follows in the same pulse (rule R105). -/
def execBrk (s : State) : Result := impSchedule (fun t => t.interruptCheck.assertFlag .B) s

/-- BNE's backward distance, an exact integer (rule R172; DESIGN CHOICE of the spec, D9; log entry 11). -/
def branchDistance (k : Nat) : Int := 256 - (k : Int)

/-- `(pc − dist(k)) mod 2^16` (rule R173; D2; log entry 4). -/
def branchTarget (pc : Addr) (k : Nat) : Addr := BitVec.ofInt 16 ((pc.toNat : Int) - branchDistance k)

/-- BNE (R173). -/
def execBne (s : State) : Result :=
  immSchedule (fun t => if t.branchTaken then t.setPc (branchTarget t.pc t.operand) else t) s

/-- SYS's action (rule R174; modes other than 1 and 2: DESIGN CHOICE of the spec, D8; log entry 10). -/
def State.sysCall (s : State) : State :=
  if s.xReg = 1 then s.emit (.dec s.yReg)
  else if s.xReg = 2 then s.emit (.chr s.operand)
  else s.report (.unsupportedSys s.xReg)

/-- SYS (R174). -/
def execSys (s : State) : Result := regSchedule (fun t => t.yReg) State.sysCall s

/-- The text a console event denotes (rule R176): decimal digits without sign, leading zero or padding;
or the character of that code, none where Unicode has no character of it (log entry 24). -/
def ConsoleEvent.text : ConsoleEvent → Option (List Char)
  | .dec n => some (Nat.toDigits 10 n)
  | .chr n => if n.isValidChar then some [Char.ofNat n] else none

end Sys2Proof.Machine
end

