-- ==== Sys2Proof/Machine/LoadStoreTransfer.lean ====
section
/-! DEFINITION. Loads, store and register transfers (spec/41_load_store_transfer.md rules R120 to R131). -/

namespace Sys2Proof.Machine

/-- LDA# (R120). -/
def execLdaImm (s : State) : Result := immSchedule (fun t => t.setAcc t.operand) s

/-- LDA (R121). -/
def execLda (s : State) : Result := absSchedule (fun t => t.setAcc (t.memRead t.sp)) s

/-- STA (R122). -/
def execSta (s : State) : Result := absSchedule (fun t => t.memWrite t.sp t.acc) s

/-- TXA (R123). -/
def execTxa (s : State) : Result := regSchedule (fun t => t.xReg) (fun t => t.setAcc t.operand) s

/-- TYA (R124). -/
def execTya (s : State) : Result := regSchedule (fun t => t.yReg) (fun t => t.setAcc t.operand) s

/-- LDX# (R125). -/
def execLdxImm (s : State) : Result := immSchedule (fun t => t.setXReg t.operand) s

/-- LDX (R126). -/
def execLdx (s : State) : Result := absSchedule (fun t => t.setXReg (t.memRead t.sp)) s

/-- TAX (R127). -/
def execTax (s : State) : Result := regSchedule (fun t => t.acc) (fun t => t.setXReg t.operand) s

/-- LDY# (R128). -/
def execLdyImm (s : State) : Result := immSchedule (fun t => t.setYReg t.operand) s

/-- LDY (R129). -/
def execLdy (s : State) : Result := absSchedule (fun t => t.setYReg (t.memRead t.sp)) s

/-- TAY (R130). -/
def execTay (s : State) : Result := regSchedule (fun t => t.acc) (fun t => t.setYReg t.operand) s

end Sys2Proof.Machine
end

