-- ==== Sys2Proof/Machine/Dispatch.lean ====
section
/-! DEFINITION. The opcode handler table: which handler a row has (spec/40_pipeline.md rule R100,
spec/30_encoding.md rule R74). -/

namespace Sys2Proof.Machine

open Sys2Proof

/-- The handler of a row, invoked in the state whose `step` is the current pulse's (rule R100). -/
def exec (i : Instr) (s : State) : Host.Outcome State Fault Refusal :=
  match i with
  | .ldaImm => Sys2Proof.Machine.execLdaImm s
  | .lda => Sys2Proof.Machine.execLda s
  | .sta => Sys2Proof.Machine.execSta s
  | .txa => Sys2Proof.Machine.execTxa s
  | .tya => Sys2Proof.Machine.execTya s
  | .adc => Sys2Proof.Machine.execAdc s
  | .ldxImm => Sys2Proof.Machine.execLdxImm s
  | .ldx => Sys2Proof.Machine.execLdx s
  | .tax => Sys2Proof.Machine.execTax s
  | .ldyImm => Sys2Proof.Machine.execLdyImm s
  | .ldy => Sys2Proof.Machine.execLdy s
  | .tay => Sys2Proof.Machine.execTay s
  | .nop => Sys2Proof.Machine.execNop s
  | .brk => Sys2Proof.Machine.execBrk s
  | .cpx => Sys2Proof.Machine.execCpx s
  | .bne => Sys2Proof.Machine.execBne s
  | .inc => Sys2Proof.Machine.execInc s
  | .sys => Sys2Proof.Machine.execSys s

end Sys2Proof.Machine
end

