-- ==== Sys2Proof/Machine/Pulse.lean ====
section
/-! DEFINITION. The pulse (spec/40_pipeline.md rules R90, R91) and placing an instruction where the
next pulse runs it. -/

namespace Sys2Proof.Machine

open Sys2Proof

/-- A pulse of step 2 or more, after its `tick`: the handler of the row whose opcode `ir` is, or the
illegal-opcode path, then the rest of the pulse (rules R90, R100, R101). -/
def handlerPulse (s : State) : Result :=
  match s.opcodeMap.lookup s.ir with
  | none => .next s.illegalOpcode.finishPulse
  | some i => mapNext State.finishPulse (exec i s)

/-- One call of `pulse` (rule R90). -/
def pulse (s : State) : Result :=
  if s.tick.step = 1 then .next s.tick.fetchPulse else handlerPulse s.tick

/-- A pulse from the host: enabled exactly when the machine is not halted (rule R91; DESIGN CHOICE of
the spec, D14; log entry 17). -/
def hostPulse (s : State) : Result :=
  if s.halted then .refused .pulseAfterShutdown else pulse s

/-- Placing cells in the store from an address up. -/
def State.placeCells (s : State) (a : Addr) : List Nat → State
  | [] => s
  | v :: cells => State.placeCells (s.memWrite a v) (nextAddr a) cells

/-- The state at an instruction boundary, running, under the default opcode map. -/
def State.atBoundary (s : State) : State :=
  { s with
    step := 0
    decodedByte1 := none
    decodedByte2 := none
    opComplete := false
    halted := false
    opcodeMap := OpcodeMap.default }

/-- The cells placed where the next fetch reads, and the fetch pulse performed: the next pulse is the
first that runs the instruction's handler (log entry 1). -/
def State.placeAndFetch (s : State) (cells : List Nat) : State :=
  let b := s.atBoundary
  (b.placeCells b.tick.fetchAddr cells).tick.fetchPulse

end Sys2Proof.Machine
end

