-- ==== Sys2Proof/Machine/Step.lean ====
section
/-! DEFINITION. One step of the machine is one pulse (log entry 1). -/

namespace Sys2Proof.Machine

/-- One step: one pulse from the host (spec/40_pipeline.md rules R90, R91). -/
def step (s : State) : Host.Outcome State Fault Refusal := hostPulse s

/-- The instruction of a table word, placed and fetched, so that the very next step runs its handler
(log entry 1). -/
def State.withFetchWord (s : State) (nbits w : Nat) : State := s.placeAndFetch (tableCells nbits w)

end Sys2Proof.Machine
end

