-- ==== Sys2Proof/Safety.lean ====
section
/-! DEFINITION. The terms claims are stated in: runs of pulses, instruction boundaries, the interrupt
input over time, and the invariants of a run. -/

namespace Sys2Proof.Machine

open Sys2Proof

/-- `n` pulses, stopping where a pulse is refused. -/
def runPulses : Nat → State → Result
  | 0, s => .next s
  | n + 1, s =>
    match step s with
    | .next t => runPulses n t
    | .fault r => .fault r
    | .refused r => .refused r

/-- `irqPending` at the `n`-th pulse from this state, counting from 1: the host's answer where it is
given, else the free draw of that pulse's number (rule R38; log entry 16). -/
def State.irqAt (s : State) (n : Nat) : Bool :=
  s.irqFuture.getD (n - 1) (Config.irqDraw s.irqSource (s.cycle + n))

/-- An instruction boundary of a running machine: the next pulse is a fetch pulse (rules R31, R34, R212). -/
abbrev State.atFetch (s : State) : Prop :=
  s.halted = false ∧ s.step = 0 ∧ s.decodedByte1 = none ∧ s.decodedByte2 = none ∧
    s.opComplete = false ∧ s.sReg ≠ .B

/-- The address the next fetch pulse reads (rule R94). -/
def State.entryAddr (s : State) : Addr := if s.cycle = 0 then s.pc else nextAddr s.pc

/-- The row whose opcode the next fetch pulse reads, none for an illegal opcode. -/
def State.nextRow (s : State) : Option Instr := s.opcodeMap.lookup (s.memRead s.entryAddr)

/-- The pipeline invariants of rule R34, for a run that has not halted; an illegal opcode in `ir` has
been seen by no handler pulse yet. -/
abbrev State.pipelineOk (s : State) : Prop :=
  s.halted = true ∨
    ((s.step ≤ 1 → s.decodedByte1 = none ∧ s.decodedByte2 = none) ∧
     (s.decodedByte2 ≠ none → s.decodedByte1 ≠ none) ∧
     (match s.opcodeMap.lookup s.ir with
      | some i => s.step ≤ stepCount i - 1
      | none => s.step ≤ 1) ∧
     s.opComplete = false)

/-- The operand latch holds what the decode calls of the current instruction have read: `sp` is the
composed address once both bytes are latched (rule R98), an operand is latched from step 2 on, and both
bytes of an address from step 3 on (rule R106). -/
abbrev State.latchOk (s : State) : Prop :=
  s.halted = true ∨
    ((match s.decodedByte1, s.decodedByte2 with
      | some lo, some hi => s.sp = compose lo hi
      | none, some _ => False
      | _, none => True) ∧
     (match s.opcodeMap.lookup s.ir with
      | some i =>
        (2 ≤ s.step → i.format ≠ .imp → s.decodedByte1 ≠ none) ∧
        (3 ≤ s.step → i.format = .abs → s.decodedByte2 ≠ none)
      | none => True))

/-- The trace law of rule R109: one entry a pulse, in pulse order, entry `i` with `cycle = i`. -/
abbrev State.traceOk (s : State) : Prop := s.trace.map TraceEntry.cycle = List.range' 1 s.cycle

/-- The halt law of rules R105, R192 and R195: halted with `sReg = B` after exactly one shutdown
request, or running with another flag after none. -/
abbrev State.haltOk (s : State) : Prop :=
  (s.halted = true ∧ s.sReg = .B ∧ s.shutdown = [.requestShutdown]) ∨
    (s.halted = false ∧ s.sReg ≠ .B ∧ s.shutdown = [])

/-- A state without what its output channels and its Trace Log hold (rules R36, R37). -/
def State.withoutOutputs (s : State) : State :=
  { s with trace := [], console := [], reports := [], shutdown := [], traceDumps := [] }

end Sys2Proof.Machine
end

