-- ==== Sys2Proof/Certificates/Slice0/Obligations.lean ====
section
/-! DEFINITION. The statements for the provers. A statement about `exec i s` is about the handler of row
`i` in the pulse whose `step` is `s.step`; a statement about `step s` is about a whole pulse; a statement
about `runPulses n s` is about `n` pulses from an instruction boundary. -/

open Sys2Proof Sys2Proof.Machine

/-! ### Encoding (spec/30_encoding.md) -/

/-- R70 to R72, R75: for every opcode map of distinct values, every row and every value of its operand
cells, decoding the cells of an instruction gives it back with the cells that follow. -/
def Obligations.DecodeOfEncodeUnderEveryMap : Prop :=
  ∀ (m : OpcodeMap) (c : Code) (rest : List Nat),
    m.wf = true → c.wf = true → decode m (encode m c ++ rest) = .ok c rest

/-- R70 to R72: what decodes encodes back to the very cells it was read from, and is well formed. -/
def Obligations.EncodeOfDecodeGivesTheCells : Prop :=
  ∀ (m : OpcodeMap) (cells : List Nat) (c : Code) (rest : List Nat),
    decode m cells = .ok c rest → c.wf = true ∧ encode m c ++ rest = cells

/-- R76: the decoder refuses an opcode value as illegal exactly when it is no row's value. -/
def Obligations.DecodeRefusesExactlyTheIllegalOpcodes : Prop :=
  ∀ (m : OpcodeMap) (v : Nat) (rest : List Nat),
    decode m (v :: rest) = .illegalOpcode v ↔ ∀ i, m.code i ≠ v

/-- R76 under the default map of R74 (PRESUMED, log entry 2): the other 238 bytes, and every value above
255, are illegal. -/
def Obligations.DefaultMapLeavesTheOtherBytesIllegal : Prop :=
  OpcodeMap.default.wf = true ∧
    ((List.range 256).filter (fun v => (OpcodeMap.default.lookup v).isNone)).length = 238 ∧
    ∀ v : Nat, 255 < v → OpcodeMap.default.lookup v = none

/-- R71, R74: some instructions' cells under the default map (PRESUMED, log entry 2), one of each format
and family. -/
def Obligations.ExampleCellsDecode : Prop :=
  decode OpcodeMap.default [0xA9, 0x05] = .ok ⟨.ldaImm, [0x05]⟩ [] ∧
    decode OpcodeMap.default [0x8D, 0x10, 0x00] = .ok ⟨.sta, [0x10, 0x00]⟩ [] ∧
    decode OpcodeMap.default [0x6D, 0x34, 0x12] = .ok ⟨.adc, [0x34, 0x12]⟩ [] ∧
    decode OpcodeMap.default [0x8A] = .ok ⟨.txa, []⟩ [] ∧
    decode OpcodeMap.default [0xD0, 0xEF] = .ok ⟨.bne, [0xEF]⟩ [] ∧
    decode OpcodeMap.default [0xFF, 0x98] = .ok ⟨.sys, []⟩ [0x98] ∧
    decode OpcodeMap.default [0x02] = .illegalOpcode 0x02

/-! ### The pulse (spec/40_pipeline.md) -/

/-- R90, R94, R100: a pulse of step 2 or more runs the handler of the row that `ir` selects, on the
state whose `cycle` and `step` have gone up by one, and then appends the trace entry, resets a completed
instruction and checks for the halt (`finishPulse`); and when the cells at the fetch address decode to an
instruction, the fetch pulse is followed by the pulse that runs it. -/
def Obligations.StepRunsTheDecodedInstruction : Prop :=
  ∀ s : State, s.halted = false →
    (∀ i, s.step ≠ 0 → s.opcodeMap.lookup s.ir = some i →
      step s = mapNext State.finishPulse (exec i s.tick)) ∧
    (∀ (c : Code) (rest : List Nat), s.step = 0 →
      decode s.opcodeMap
          [s.memRead s.entryAddr, s.memRead (nextAddr s.entryAddr),
            s.memRead (nextAddr (nextAddr s.entryAddr))] = .ok c rest →
      ∃ t, step s = .next t ∧ t.halted = false ∧ t.step = 1 ∧
        step t = mapNext State.finishPulse (exec c.row t.tick))

/-- R92 to R94, R99: the fetch pulse. It counts, moves `pc` on unless it is the first pulse of the run,
reads the opcode and traces; nothing else changes but the host's answer, taken anew (log entry 16). The wrap of `pc`
is the spec's decision D2. -/
def Obligations.FetchPulseReadsTheOpcode : Prop :=
  ∀ s : State, s.halted = false → s.step = 0 →
    step s = .next
      { s with
        cycle := s.cycle + 1
        step := 1
        pc := if s.cycle = 0 then s.pc else nextAddr s.pc
        ir := s.memRead (if s.cycle = 0 then s.pc else nextAddr s.pc)
        irqPending := s.irqAt 1
        irqFuture := s.irqFuture.tail
        trace := s.trace ++
          [{ cycle := s.cycle + 1
             pc := if s.cycle = 0 then s.pc else nextAddr s.pc
             sp := s.sp
             ir := s.memRead (if s.cycle = 0 then s.pc else nextAddr s.pc)
             decodedByte1 := s.decodedByte1
             decodedByte2 := s.decodedByte2
             acc := s.acc
             xReg := s.xReg
             yReg := s.yReg
             sReg := s.sReg
             step := 1 }] }

/-- R91, R102, R191: a pulse is enabled exactly when the machine is not halted, and then it always
answers a next state. That the halted state has no pulse is the spec's decision D14 (log entry 17). -/
def Obligations.PulseIsEnabledExactlyWhenRunning : Prop :=
  ∀ s : State,
    (s.halted = false → ∃ t, step s = .next t) ∧
    (s.halted = true → step s = .refused .pulseAfterShutdown)

/-- R101, R105: the pulse that finds no handler for `ir`, in a state where no instruction has completed:
the report, the break flag, one trace entry, no completion reset, the shutdown request. -/
def Obligations.IllegalOpcodePulseHalts : Prop :=
  ∀ s : State, s.halted = false → s.step ≠ 0 → s.opcodeMap.lookup s.ir = none → s.opComplete = false →
    step s = .next
      { s with
        cycle := s.cycle + 1
        step := s.step + 1
        irqPending := s.irqAt 1
        irqFuture := s.irqFuture.tail
        reports := s.reports ++ [.illegalOpcode s.ir]
        sReg := .B
        trace := s.trace ++
          [{ cycle := s.cycle + 1
             pc := s.pc
             sp := s.sp
             ir := s.ir
             decodedByte1 := s.decodedByte1
             decodedByte2 := s.decodedByte2
             acc := s.acc
             xReg := s.xReg
             yReg := s.yReg
             sReg := .B
             step := s.step + 1 }]
        traceDumps :=
          if s.diag = true then
            s.traceDumps ++ [s.trace ++
              [{ cycle := s.cycle + 1
                 pc := s.pc
                 sp := s.sp
                 ir := s.ir
                 decodedByte1 := s.decodedByte1
                 decodedByte2 := s.decodedByte2
                 acc := s.acc
                 xReg := s.xReg
                 yReg := s.yReg
                 sReg := .B
                 step := s.step + 1 }]]
          else s.traceDumps
        shutdown := s.shutdown ++ [.requestShutdown]
        halted := true }

/-- R217, V70: from an instruction boundary an illegal opcode takes two pulses, is left in `ir` with
`pc` at its cell, and halts the machine. -/
def Obligations.IllegalInstructionTakesTwoPulses : Prop :=
  ∀ s : State, s.atFetch → s.nextRow = none →
    (∃ u, runPulses 1 s = .next u ∧ u.halted = false ∧ u.reports = s.reports) ∧
    ∃ t, runPulses 2 s = .next t ∧ t.halted = true ∧ t.sReg = .B ∧ t.step = 2 ∧
      t.ir = s.memRead s.entryAddr ∧ t.pc = s.entryAddr ∧
      t.decodedByte1 = none ∧ t.decodedByte2 = none ∧
      t.reports = s.reports ++ [.illegalOpcode (s.memRead s.entryAddr)] ∧
      t.shutdown = s.shutdown ++ [.requestShutdown] ∧ t.mem = s.mem ∧ t.console = s.console

/-- R99: exactly one trace entry a pulse, with the values after the fetch on a fetch pulse, and after the
handler or the illegal-opcode path, before the completion reset, on every other: so an instruction's last
entry shows its last step. -/
def Obligations.EveryPulseAppendsOneTraceEntry : Prop :=
  (∀ u : State, u.snapshot =
    { cycle := u.cycle, pc := u.pc, sp := u.sp, ir := u.ir, decodedByte1 := u.decodedByte1,
      decodedByte2 := u.decodedByte2, acc := u.acc, xReg := u.xReg, yReg := u.yReg, sReg := u.sReg,
      step := u.step }) ∧
  ∀ s t : State, step s = .next t →
    (s.step = 0 → t.trace = s.trace ++ [t.snapshot]) ∧
    (s.step ≠ 0 → s.opcodeMap.lookup s.ir = none →
      t.trace = s.trace ++ [s.tick.illegalOpcode.snapshot]) ∧
    (∀ i u, s.step ≠ 0 → s.opcodeMap.lookup s.ir = some i → exec i s.tick = .next u →
      t.trace = s.trace ++ [u.snapshot] ∧ u.step = s.step + 1)

/-- R104: at the end of a pulse whose handler completed the instruction, the pipeline state is reset, the
registers are as the handler left them, and the next pulse, if the machine has not halted, is a fresh
fetch. -/
def Obligations.CompletionResetStartsAFreshFetch : Prop :=
  ∀ (s u : State) (i : Instr), s.halted = false → s.step ≠ 0 → s.opcodeMap.lookup s.ir = some i →
    exec i s.tick = .next u → u.opComplete = true →
    ∃ t, step s = .next t ∧ t.step = 0 ∧ t.decodedByte1 = none ∧ t.decodedByte2 = none ∧
      t.opComplete = false ∧ t.pc = u.pc ∧ t.sp = u.sp ∧ t.ir = u.ir ∧ t.acc = u.acc ∧
      t.xReg = u.xReg ∧ t.yReg = u.yReg ∧ t.sReg = u.sReg ∧
      (t.halted = false → ∃ v, step t = .next v ∧ v.step = 1 ∧ v.pc = t.entryAddr ∧ v.ir = t.memRead t.entryAddr)

/-- R105: at the end of every pulse but a fetch pulse, and only there, a set break flag sends the
shutdown request and halts, after handing over the whole trace in diagnostic mode only; and a handler sets
the break flag only as BRK's last action, the illegal-opcode path always. -/
def Obligations.HaltCheckSendsTheShutdownRequest : Prop :=
  ∀ s t : State, step s = .next t →
    (s.step = 0 → t.halted = false ∧ t.shutdown = s.shutdown ∧ t.traceDumps = s.traceDumps) ∧
    (s.step ≠ 0 → t.sReg = .B →
      t.halted = true ∧ t.shutdown = s.shutdown ++ [.requestShutdown] ∧
        t.traceDumps = if s.diag = true then s.traceDumps ++ [t.trace] else s.traceDumps) ∧
    (s.step ≠ 0 → t.sReg ≠ .B →
      t.halted = false ∧ t.shutdown = s.shutdown ∧ t.traceDumps = s.traceDumps) ∧
    (s.sReg ≠ .B → t.sReg = .B →
      s.step ≠ 0 ∧
        (s.opcodeMap.lookup s.ir = none ∨ (s.opcodeMap.lookup s.ir = some .brk ∧ s.step = 2))) ∧
    (s.step ≠ 0 → s.opcodeMap.lookup s.ir = none → t.sReg = .B)

/-- R102: a handler invoked with a step outside 2..N makes one report and does nothing else. -/
def Obligations.StepRangeErrorOnlyReports : Prop :=
  ∀ (i : Instr) (s : State), s.step < 2 ∨ stepCount i < s.step →
    exec i s = .next { s with reports := s.reports ++ [.stepRangeError s.ir s.step] }

/-- R95: `Decode(0, v)` latches the value it is given and changes nothing else: no `pc`, no store. -/
def Obligations.RegisterCopyDecodeSetsTheLatch : Prop :=
  ∀ (s : State) (v : Nat), s.decodeReg (some v) = { s with decodedByte1 := some v }

/-- R96: `Decode(0)` without a value only reports; the decoded state stays as it was. -/
def Obligations.MissingDecodeInputOnlyReports : Prop :=
  ∀ s : State, s.decodeReg none = { s with reports := s.reports ++ [.missingDecodeInput] }

/-- R71, R106: step 2 of every register-copy instruction latches its source register (for SYS, `yReg`:
the spec's decision D8). -/
def Obligations.RegisterCopyPulses : Prop :=
  ∀ s : State, s.step = 2 →
    exec .txa s = .next { s with decodedByte1 := some s.xReg } ∧
    exec .tya s = .next { s with decodedByte1 := some s.yReg } ∧
    exec .tax s = .next { s with decodedByte1 := some s.acc } ∧
    exec .tay s = .next { s with decodedByte1 := some s.acc } ∧
    exec .sys s = .next { s with decodedByte1 := some s.yReg }

/-- R97, R106: step 2 of every immediate instruction moves `pc` on by one and latches the cell there,
unchanged. -/
def Obligations.ImmediateDecodePulse : Prop :=
  ∀ (i : Instr) (s : State), i.format = .imm → s.step = 2 →
    exec i s = .next
      { s with pc := nextAddr s.pc, decodedByte1 := some (s.memRead (nextAddr s.pc)) }

/-- R98, R106: steps 2 and 3 of every instruction with an address operand. With nothing latched the low
byte is latched; with the low byte latched (a low byte of 0 among them) the high byte is, and `sp` becomes
the composed address. -/
def Obligations.AddressDecodePulses : Prop :=
  ∀ (i : Instr) (s : State), i.format = .abs → s.step = 2 ∨ s.step = 3 →
    (s.decodedByte1 = none →
      exec i s = .next
        { s with pc := nextAddr s.pc, decodedByte1 := some (s.memRead (nextAddr s.pc)) }) ∧
    (∀ lo, s.decodedByte1 = some lo →
      exec i s = .next
        { s with
          pc := nextAddr s.pc
          decodedByte2 := some (s.memRead (nextAddr s.pc))
          sp := compose lo (s.memRead (nextAddr s.pc)) })

/-- R103, R106: the last pulse of every instruction but BRK is the interrupt check: the pending flag if
the input is non-empty, and completion; nothing else changes, the operand latch and the input included. -/
def Obligations.LastPulseIsTheInterruptCheck : Prop :=
  ∀ (i : Instr) (s : State), i ≠ .brk → s.step = stepCount i →
    exec i s = .next
      { s with sReg := if s.irqPending = true then .I else s.sReg, opComplete := true }

/-! ### The instructions (spec/41_load_store_transfer.md, 42_arith_compare.md, 43_control_system.md) -/

/-- R120, R125, R128: step 3 of the immediate loads. No flag is written. -/
def Obligations.LoadImmediateActions : Prop :=
  ∀ (s : State) (k : Nat), s.step = 3 → s.decodedByte1 = some k →
    exec .ldaImm s = .next { s with acc := k } ∧
    exec .ldxImm s = .next { s with xReg := k } ∧
    exec .ldyImm s = .next { s with yReg := k }

/-- R121, R126, R129: step 4 of the loads from memory. No flag is written. -/
def Obligations.LoadMemoryActions : Prop :=
  ∀ s : State, s.step = 4 →
    exec .lda s = .next { s with acc := s.memRead s.sp } ∧
    exec .ldx s = .next { s with xReg := s.memRead s.sp } ∧
    exec .ldy s = .next { s with yReg := s.memRead s.sp }

/-- R122: step 4 of STA stores the accumulator, of any size, at `sp`, and every other cell reads as
before; nothing but the store changes. -/
def Obligations.StoreActionWritesTheAddressedCell : Prop :=
  ∀ s : State, s.mem.wf = true → s.step = 4 →
    ∃ t, exec .sta s = .next t ∧ t.memRead s.sp = s.acc ∧
      (∀ a, a ≠ s.sp → t.memRead a = s.memRead a) ∧ t.mem.wf = true ∧ t = { s with mem := t.mem }

/-- R123, R124, R127, R130: step 3 of the transfers writes the latched value to the destination and
nothing else. -/
def Obligations.TransferActions : Prop :=
  ∀ (s : State) (v : Nat), s.step = 3 → s.decodedByte1 = some v →
    exec .txa s = .next { s with acc := v } ∧
    exec .tya s = .next { s with acc := v } ∧
    exec .tax s = .next { s with xReg := v } ∧
    exec .tay s = .next { s with yReg := v }

/-- R150: step 4 of ADC. The exact sum; above 0xFFFF the overflow flag and a warning, otherwise `sReg` as
it was. That the sum is never clamped is the spec's decision D1 (log entry 3). -/
def Obligations.AddActionSetsOverflowAboveTheLimit : Prop :=
  ∀ s : State, s.step = 4 →
    (s.acc + s.memRead s.sp ≤ 0xFFFF →
      exec .adc s = .next { s with acc := s.acc + s.memRead s.sp }) ∧
    (0xFFFF < s.acc + s.memRead s.sp →
      exec .adc s = .next
        { s with
          acc := s.acc + s.memRead s.sp
          sReg := .V
          reports := s.reports ++ [.overflowWarning (s.acc + s.memRead s.sp)] })

/-- R151: step 4 of CPX. On equality the zero flag; on inequality nothing (the spec's decision D6, log
entry 8). -/
def Obligations.CompareActionSetsZeroOnEquality : Prop :=
  ∀ s : State, s.step = 4 →
    (s.xReg = s.memRead s.sp → exec .cpx s = .next { s with sReg := .Z }) ∧
    (s.xReg ≠ s.memRead s.sp → exec .cpx s = .next s)

/-- R152: steps 4, 5 and 6 of INC: read, exact increment without a flag, write back through the
accumulator; every cell but the addressed one reads as before. -/
def Obligations.IncrementActions : Prop :=
  ∀ s : State,
    (s.step = 4 → exec .inc s = .next { s with acc := s.memRead s.sp }) ∧
    (s.step = 5 → exec .inc s = .next { s with acc := s.acc + 1 }) ∧
    (s.mem.wf = true → s.step = 6 →
      ∃ t, exec .inc s = .next t ∧ t.memRead s.sp = s.acc ∧
        (∀ a, a ≠ s.sp → t.memRead a = s.memRead a) ∧ t.mem.wf = true ∧ t = { s with mem := t.mem })

/-- R170: NOP does nothing in step 2 and only the interrupt check in step 3 (the spec's decision D7, log
entry 9). -/
def Obligations.NopOnlyChecksForInterrupts : Prop :=
  ∀ s : State,
    (s.step = 2 → exec .nop s = .next s) ∧
    (s.step = 3 →
      exec .nop s = .next
        { s with sReg := if s.irqPending = true then .I else s.sReg, opComplete := true })

/-- R171: BRK does nothing in step 2; in step 3 the break flag stands whatever the interrupt input says,
and the pulse resets the pipeline, reports nothing and halts (the spec's decision D7, log entry 9). -/
def Obligations.BreakHaltsOnItsThirdPulse : Prop :=
  ∀ s : State,
    (s.step = 2 → exec .brk s = .next s) ∧
    (s.step = 3 → exec .brk s = .next { s with sReg := .B, opComplete := true }) ∧
    (s.halted = false → s.step = 2 → s.opcodeMap.lookup s.ir = some .brk →
      ∃ t, step s = .next t ∧ t.halted = true ∧ t.sReg = .B ∧ t.step = 0 ∧ t.pc = s.pc ∧
        t.shutdown = s.shutdown ++ [.requestShutdown] ∧ t.reports = s.reports)

/-- R172, R173: step 3 of BNE. Unless `sReg` is exactly `Z`, `pc` moves back by the exact distance
256 − k, modulo 2^16 (the spec's decisions D2 and D9, log entries 4 and 11); with `Z` nothing changes. -/
def Obligations.BranchActionMovesBackUnlessZero : Prop :=
  ∀ (s : State) (k : Nat), s.step = 3 → s.decodedByte1 = some k →
    (s.sReg = .Z → exec .bne s = .next s) ∧
    (s.sReg ≠ .Z →
      exec .bne s = .next { s with pc := BitVec.ofInt 16 ((s.pc.toNat : Int) - (256 - (k : Int))) })

/-- R174: step 3 of SYS. Mode 1 emits `yReg` in decimal, mode 2 the character of the latched byte, every
other mode a report and no output (modes other than 1 to 3: the spec's decision D8, log entry 10). -/
def Obligations.SystemCallActions : Prop :=
  ∀ (s : State) (k : Nat), s.step = 3 → s.decodedByte1 = some k →
    (s.xReg = 1 → exec .sys s = .next { s with console := s.console ++ [.dec s.yReg] }) ∧
    (s.xReg = 2 → exec .sys s = .next { s with console := s.console ++ [.chr k] }) ∧
    (s.xReg ≠ 1 → s.xReg ≠ 2 →
      exec .sys s = .next { s with reports := s.reports ++ [.unsupportedSys s.xReg] })

/-! ### Arithmetic of addresses, flag values, console text -/

/-- R8, R21, R53: increments and composed addresses are taken modulo 2^16 (the spec's decisions D2 and D3,
log entries 4 and 5); bytes compose exactly. -/
def Obligations.AddressArithmeticWraps : Prop :=
  (∀ a : Addr, (nextAddr a).toNat = (a.toNat + 1) % 65536) ∧
    (∀ lo hi : Nat, (compose lo hi).toNat = (hi * 256 + lo) % 65536) ∧
    (∀ lo hi : Nat, lo < 256 → hi < 256 → (compose lo hi).toNat = hi * 256 + lo)

/-- R172, R173: a byte operand moves `pc` back by 256 − k and a larger one forward by k − 256, modulo
2^16 (the spec's decisions D2 and D9, log entries 4 and 11). -/
def Obligations.BranchTargetsWrap : Prop :=
  ∀ (pc : Addr) (k : Nat),
    (k ≤ 256 → ((branchTarget pc k).toNat + (256 - k)) % 65536 = pc.toNat) ∧
    (256 < k → (branchTarget pc k).toNat = (pc.toNat + (k - 256)) % 65536)

/-- R176: the text of a decimal event is a numeral of digits 0 to 9, most significant first, without sign
or leading zero, whose value is the number; it is not empty (the spec's decision D8, log entry 24). -/
def Obligations.DecimalEventsDenoteTheNumeral : Prop :=
  ∀ n : Nat, ∃ digits : List Char,
    ConsoleEvent.text (.dec n) = some digits ∧ digits ≠ [] ∧
    (∀ c ∈ digits, '0'.toNat ≤ c.toNat ∧ c.toNat ≤ '9'.toNat) ∧
    (digits.head? = some '0' → digits = ['0']) ∧
    digits.foldl (fun v c => 10 * v + (c.toNat - '0'.toNat)) 0 = n

/-! ### Frames: what every handler and every pulse leaves unchanged -/

/-- R40: the registers a handler may write, row by row; the rest of the machine a handler never
touches. -/
def Obligations.RegistersAreWrittenOnlyByTheirInstructions : Prop :=
  ∀ (i : Instr) (s t : State), exec i s = .next t →
    (t.acc ≠ s.acc → i ∈ [Instr.ldaImm, .lda, .txa, .tya, .adc, .inc]) ∧
    (t.xReg ≠ s.xReg → i ∈ [Instr.ldxImm, .ldx, .tax]) ∧
    (t.yReg ≠ s.yReg → i ∈ [Instr.ldyImm, .ldy, .tay]) ∧
    (t.sp ≠ s.sp → i.format = .abs) ∧
    (t.pc ≠ s.pc → i.format = .imm ∨ i.format = .abs) ∧
    t.ir = s.ir ∧ t.step = s.step ∧ t.cycle = s.cycle ∧ t.trace = s.trace ∧ t.halted = s.halted ∧
    t.shutdown = s.shutdown ∧ t.traceDumps = s.traceDumps ∧ t.irqPending = s.irqPending ∧
    t.irqFuture = s.irqFuture ∧ t.irqSource = s.irqSource ∧ t.opcodeMap = s.opcodeMap ∧ t.diag = s.diag

/-- R56: no handler pulse but step 4 of STA and step 6 of INC changes any cell. -/
def Obligations.OnlyStoringPulsesChangeTheStore : Prop :=
  ∀ (i : Instr) (s t : State), exec i s = .next t →
    ¬(i = .sta ∧ s.step = 4) → ¬(i = .inc ∧ s.step = 6) → ∀ a, t.memRead a = s.memRead a

/-- R22, R23, R30, R38: a pulse counts itself, writes `ir` only as a fetch, writes `sp` only as the second
address decode, and never changes the host's parameters. The interrupt input is answered anew at every
pulse: by the host's given answers while there are any, and then by the free draw of the pulse's own
number, whatever the answers before were (the spec's decision D13, log entry 16). -/
def Obligations.PulseFrame : Prop :=
  ∀ s t : State, step s = .next t →
    t.cycle = s.cycle + 1 ∧
    (s.step ≠ 0 → t.ir = s.ir) ∧
    (t.sp ≠ s.sp →
      ∃ i lo, s.opcodeMap.lookup s.ir = some i ∧ i.format = .abs ∧ (s.step = 1 ∨ s.step = 2) ∧
        s.decodedByte1 = some lo ∧ t.sp = compose lo (s.memRead (nextAddr s.pc))) ∧
    t.opcodeMap = s.opcodeMap ∧ t.diag = s.diag ∧ t.irqSource = s.irqSource ∧
    t.irqFuture = s.irqFuture.tail ∧ t.irqPending = s.irqAt 1 ∧
    (s.irqFuture = [] → t.irqPending = Config.irqDraw t.irqSource t.cycle)

/-- R27, R29, R193: `sReg` changes only by CPX's equality, the interrupt check, BRK or an illegal opcode,
or ADC's overflow, and then to that source's flag. -/
def Obligations.FlagIsWrittenOnlyByItsSources : Prop :=
  ∀ s t : State, step s = .next t → t.sReg ≠ s.sReg →
    (t.sReg = .Z ∧ s.opcodeMap.lookup s.ir = some .cpx ∧ s.step = 3 ∧ s.xReg = s.memRead s.sp) ∨
    (t.sReg = .V ∧ s.opcodeMap.lookup s.ir = some .adc ∧ s.step = 3 ∧ 0xFFFF < s.acc + s.memRead s.sp) ∨
    (t.sReg = .I ∧ s.irqAt 1 = true ∧
      ∃ i, s.opcodeMap.lookup s.ir = some i ∧ i ≠ .brk ∧ s.step + 1 = stepCount i) ∨
    (t.sReg = .B ∧ s.step ≠ 0 ∧
      (s.opcodeMap.lookup s.ir = none ∨ (s.opcodeMap.lookup s.ir = some .brk ∧ s.step = 2)))

/-- R27, R28: the flag values; and once a flag is set no pulse clears `sReg` to none (the spec's decision
D4, log entry 6). -/
def Obligations.NoPulseClearsTheFlagRegister : Prop :=
  (Flag.code .none = none ∧ Flag.code .Z = some 1 ∧ Flag.code .I = some 2 ∧ Flag.code .B = some 4 ∧
    Flag.code .V = some 6) ∧
  ∀ s t : State, step s = .next t → s.sReg ≠ .none → t.sReg ≠ .none

/-- R190, R193: within the step range a handler reports at most one condition, ADC's overflow or SYS's
unsupported mode. -/
def Obligations.HandlersReportOnlyTheirConditions : Prop :=
  ∀ (i : Instr) (s t : State), 2 ≤ s.step → s.step ≤ stepCount i → exec i s = .next t →
    t.reports = s.reports ∨
    (i = .adc ∧ s.step = 4 ∧ 0xFFFF < t.acc ∧ t.reports = s.reports ++ [.overflowWarning t.acc]) ∨
    (i = .sys ∧ s.step = 3 ∧ s.xReg ≠ 1 ∧ s.xReg ≠ 2 ∧
      t.reports = s.reports ++ [.unsupportedSys s.xReg])

/-- R175: a pulse emits a console event only in the action of SYS, and then one; each SYS from fetch to
completion emits at most one, a decimal numeral or a character, and no other instruction emits any. -/
def Obligations.ConsoleEventsComeOnlyFromSys : Prop :=
  (∀ s t : State, step s = .next t →
    t.console = s.console ∨
    (s.opcodeMap.lookup s.ir = some .sys ∧ s.step = 2 ∧
      ∃ n, t.console = s.console ++ [.dec n] ∨ t.console = s.console ++ [.chr n])) ∧
  ∀ (s : State) (i : Instr), s.atFetch → s.nextRow = some i →
    ∃ t, runPulses (stepCount i) s = .next t ∧
      (i ≠ .sys → t.console = s.console) ∧
      (t.console = s.console ∨
        ∃ n, t.console = s.console ++ [.dec n] ∨ t.console = s.console ++ [.chr n])

/-- R36, R37: the Trace Log and the output channels are append-only. -/
def Obligations.OutputsAreAppendOnly : Prop :=
  ∀ s t : State, step s = .next t →
    s.trace <+: t.trace ∧ s.console <+: t.console ∧ s.reports <+: t.reports ∧
      s.shutdown <+: t.shutdown ∧ s.traceDumps <+: t.traceDumps

/-! ### Isolation: what cannot influence what -/

/-- R36, R37: nothing reads the Trace Log or an output channel. Two states that differ only in them take
the same step, up to them. -/
def Obligations.OutputsAreNeverRead : Prop :=
  ∀ s₁ s₂ : State, s₁.withoutOutputs = s₂.withoutOutputs →
    (∀ t₁, step s₁ = .next t₁ → ∃ t₂, step s₂ = .next t₂ ∧ t₁.withoutOutputs = t₂.withoutOutputs) ∧
    (∀ r, step s₁ = .refused r → step s₂ = .refused r)

/-- R194, R103: in a handler pulse a non-empty interrupt input only sets the pending flag, at the last
step of an instruction other than BRK. -/
def Obligations.InterruptInputOnlySetsTheFlag : Prop :=
  ∀ (i : Instr) (s t u : State), exec i { s with irqPending := false } = .next t →
    exec i { s with irqPending := true } = .next u →
    u =
      { t with
        irqPending := true
        sReg := if s.step = stepCount i ∧ i ≠ .brk then .I else t.sReg }

/-- R29: no handler but BNE's reads `sReg`; BNE's reads it only to choose `pc`. -/
def Obligations.OnlyTheBranchReadsTheFlag : Prop :=
  ∀ (i : Instr) (s t u : State) (f : Flag), exec i s = .next t →
    exec i { s with sReg := f } = .next u →
    { u with sReg := .none, pc := 0 } = { t with sReg := .none, pc := 0 } ∧
    (i ≠ .bne → u.pc = t.pc)

/-! ### Invariants of every pulse -/

/-- R50, R51: every pulse keeps the store in its canonical form. -/
def Obligations.EveryPulseKeepsTheStoreCanonical : Prop :=
  ∀ s t : State, s.mem.wf = true → step s = .next t → t.mem.wf = true

/-- R34: every pulse keeps the pipeline invariants. -/
def Obligations.EveryPulseKeepsThePipelineInvariants : Prop :=
  ∀ s t : State, s.pipelineOk → step s = .next t → t.pipelineOk

/-- R98, R106: every pulse keeps the operand latch filled as the decode calls fill it, so that no
handler's action ever reads an unlatched operand (log entry 22), and `sp` the address composed of it. -/
def Obligations.EveryPulseKeepsTheOperandLatch : Prop :=
  ∀ s t : State, s.pipelineOk → s.latchOk → step s = .next t → t.latchOk

/-- R109: every pulse keeps the trace law. -/
def Obligations.EveryPulseKeepsTheTraceLaw : Prop :=
  ∀ s t : State, s.traceOk → step s = .next t → t.traceOk

/-- R105, R192, R195: every pulse keeps the halt law: one shutdown request exactly when halted, and
halted exactly when the break flag is set. -/
def Obligations.EveryPulseKeepsTheHaltLaw : Prop :=
  ∀ s t : State, s.haltOk → step s = .next t → t.haltOk

/-- R110, R192: only BRK's third pulse and an illegal opcode halt a machine that keeps the halt law. -/
def Obligations.OnlyBreakAndIllegalOpcodesHalt : Prop :=
  ∀ s t : State, s.haltOk → step s = .next t → t.halted = true →
    s.step ≠ 0 ∧
      (s.opcodeMap.lookup s.ir = none ∨ (s.opcodeMap.lookup s.ir = some .brk ∧ s.step = 2))

/-- R39, R210: after every launch with a canonical store, whatever the draws, the machine is at an
instruction boundary and all the invariants hold. -/
def Obligations.LaunchMeetsTheInvariants : Prop :=
  ∀ l : Launch, l.mem.wf = true →
    (State.launch l).atFetch ∧ (State.launch l).mem.wf = true ∧ (State.launch l).pipelineOk ∧
      (State.launch l).latchOk ∧ (State.launch l).traceOk ∧ (State.launch l).haltOk

/-- R39, R210: the state after every launch; and the model's own choice of `State.reset` (log entries 2,
12, 13, 14, 16, 21), which no rule of the spec gives. -/
def Obligations.LaunchAndResetValues : Prop :=
  (∀ l : Launch,
    (State.launch l).pc = l.entryPc ∧ (State.launch l).sReg = .none ∧ (State.launch l).step = 0 ∧
    (State.launch l).decodedByte1 = none ∧ (State.launch l).decodedByte2 = none ∧
    (State.launch l).opComplete = false ∧ (State.launch l).cycle = 0 ∧ (State.launch l).trace = [] ∧
    (State.launch l).halted = false ∧ (State.launch l).console = [] ∧ (State.launch l).reports = [] ∧
    (State.launch l).shutdown = [] ∧ (State.launch l).sp = l.sp ∧ (State.launch l).ir = l.ir ∧
    (State.launch l).acc = l.acc ∧ (State.launch l).xReg = l.xReg ∧ (State.launch l).yReg = l.yReg ∧
    (State.launch l).mem = l.mem ∧ (State.launch l).irqFuture = l.irqFuture ∧
    (State.launch l).irqSource = l.irqSource) ∧
  State.reset.pc = 0 ∧ State.reset.sp = 0 ∧ State.reset.ir = 0 ∧ State.reset.acc = 0 ∧
    State.reset.xReg = 0 ∧ State.reset.yReg = 0 ∧ State.reset.mem = [] ∧
    State.reset.irqPending = false ∧ State.reset.irqFuture = [] ∧ State.reset.diag = false ∧
    State.reset.opcodeMap = OpcodeMap.default

/-! ### Whole instructions, from an instruction boundary -/

/-- R107, R217: every instruction completes on exactly its N-th pulse, no earlier pulse completes it, and
the next pulse is a fetch pulse; only BRK leaves the machine halted. -/
def Obligations.EveryInstructionTakesItsStepCount : Prop :=
  ∀ (s : State) (i : Instr), s.atFetch → s.nextRow = some i →
    (∀ k, 0 < k → k < stepCount i →
      ∃ u, runPulses k s = .next u ∧ u.step = k ∧ u.opComplete = false ∧ u.halted = false) ∧
    ∃ t, runPulses (stepCount i) s = .next t ∧ t.step = 0 ∧ t.decodedByte1 = none ∧
      t.decodedByte2 = none ∧ t.opComplete = false ∧ t.cycle = s.cycle + stepCount i ∧
      (t.halted = true ↔ i = .brk)

/-- R108: an instruction at address A other than BNE leaves `pc` at A + L − 1 modulo 2^16, the address of
its last cell. -/
def Obligations.EveryInstructionLeavesThePcAtItsLastCell : Prop :=
  ∀ (s : State) (i : Instr), s.atFetch → s.nextRow = some i → i ≠ .bne →
    ∃ t, runPulses (stepCount i) s = .next t ∧
      (t.pc).toNat = (s.entryAddr.toNat + (i.length - 1)) % 65536

/-- R173: BNE from fetch to completion. With P the address of the operand cell and k its value, `pc` ends
at P − (256 − k) modulo 2^16 unless `sReg` was `Z`, and at P if it was. -/
def Obligations.WholeBranch : Prop :=
  ∀ s : State, s.atFetch → s.nextRow = some .bne →
    ∃ t, runPulses 4 s = .next t ∧
      (s.sReg = .Z → t.pc = nextAddr s.entryAddr) ∧
      (s.sReg ≠ .Z →
        t.pc = BitVec.ofInt 16
          (((nextAddr s.entryAddr).toNat : Int) - (256 - (s.memRead (nextAddr s.entryAddr) : Int)))) ∧
      t.sReg = (if s.irqAt 4 = true then .I else s.sReg) ∧
      t.acc = s.acc ∧ t.xReg = s.xReg ∧ t.yReg = s.yReg ∧ t.sp = s.sp ∧ t.mem = s.mem

/-- R150, W7: ADC from fetch to completion: the exact sum, the warning above 0xFFFF, the flag unless the
interrupt check displaces it, and no halt. -/
def Obligations.WholeAddition : Prop :=
  ∀ (s : State) (a : Addr) (sum : Nat), s.atFetch → s.nextRow = some .adc →
    a = compose (s.memRead (nextAddr s.entryAddr)) (s.memRead (nextAddr (nextAddr s.entryAddr))) →
    sum = s.acc + s.memRead a →
    ∃ t, runPulses 5 s = .next t ∧ t.acc = sum ∧ t.sp = a ∧ t.halted = false ∧ t.mem = s.mem ∧
      t.xReg = s.xReg ∧ t.yReg = s.yReg ∧ t.console = s.console ∧
      t.reports = (if 0xFFFF < sum then s.reports ++ [.overflowWarning sum] else s.reports) ∧
      t.sReg = (if s.irqAt 5 = true then .I else if 0xFFFF < sum then .V else s.sReg)

/-- R152: INC from fetch to completion: the addressed cell and the accumulator hold the successor, no
flag but the pending flag is written, and every other cell reads as before. -/
def Obligations.WholeIncrement : Prop :=
  ∀ (s : State) (a : Addr), s.atFetch → s.mem.wf = true → s.nextRow = some .inc →
    a = compose (s.memRead (nextAddr s.entryAddr)) (s.memRead (nextAddr (nextAddr s.entryAddr))) →
    ∃ t, runPulses 7 s = .next t ∧ t.acc = s.memRead a + 1 ∧ t.memRead a = s.memRead a + 1 ∧
      (∀ b, b ≠ a → t.memRead b = s.memRead b) ∧ t.sp = a ∧ t.xReg = s.xReg ∧ t.yReg = s.yReg ∧
      t.reports = s.reports ∧ t.console = s.console ∧
      t.sReg = (if s.irqAt 7 = true then .I else s.sReg)

/-- R61, P4: STA and the fetch after it. The next fetch reads the stored value if STA wrote the next
instruction's cell, and the cell's old value otherwise. -/
def Obligations.StoreIsSeenByTheNextFetch : Prop :=
  ∀ (s : State) (a n : Addr), s.atFetch → s.mem.wf = true → s.nextRow = some .sta →
    a = compose (s.memRead (nextAddr s.entryAddr)) (s.memRead (nextAddr (nextAddr s.entryAddr))) →
    n = nextAddr (nextAddr (nextAddr s.entryAddr)) →
    ∃ t, runPulses 6 s = .next t ∧ t.step = 1 ∧ t.pc = n ∧
      t.ir = (if n = a then s.acc else s.memRead n)

/-- R216: if the interrupt input is non-empty at CPX's last pulse, the BNE after it branches whatever the
compare found. -/
def Obligations.PendingInterruptMakesTheBranchTaken : Prop :=
  ∀ (s : State) (p : Addr), s.atFetch → s.nextRow = some .cpx → s.irqAt 5 = true →
    p = nextAddr (nextAddr (nextAddr (nextAddr s.entryAddr))) →
    s.opcodeMap.lookup (s.memRead (nextAddr (nextAddr (nextAddr s.entryAddr)))) = some .bne →
    ∃ t, runPulses 9 s = .next t ∧
      t.pc = BitVec.ofInt 16 ((p.toNat : Int) - (256 - (s.memRead p : Int)))
end

