-- ==== Sys2Proof/Laws/Decode.lean ====
section
/-! SUPPORT. The opcode lookup: sound for every map, complete for a well-formed one. -/

namespace Sys2Proof

theorem Instr.mem_all (i : Instr) : i ∈ Instr.all := by
  cases i <;> simp [Instr.all]

theorem OpcodeMap.values_eq (m : OpcodeMap) : m.values = Instr.all.map m.code := rfl

/-- Among pairwise distinct images, searching for an element's image finds the element. -/
theorem find_image {f : Instr → Nat} {l : List Instr} {i : Instr} (hl : (l.map f).Nodup) (hi : i ∈ l) :
    l.find? (fun j => f j == f i) = some i := by
  induction l with
  | nil => cases hi
  | cons j l ih =>
    rw [List.map_cons, List.nodup_cons] at hl
    rcases List.mem_cons.1 hi with rfl | hi'
    · simp
    · have hne : f j ≠ f i := fun h => hl.1 (h ▸ List.mem_map_of_mem hi')
      rw [List.find?_cons_of_neg (by simpa using hne)]
      exact ih hl.2 hi'

/-- A row's opcode selects the row, in a well-formed map. -/
theorem OpcodeMap.lookup_code {m : OpcodeMap} (h : m.wf = true) (i : Instr) :
    m.lookup (m.code i) = some i :=
  find_image (by rw [← OpcodeMap.values_eq]; exact of_decide_eq_true h) (Instr.mem_all i)

/-- A row that a value selects has that value as its opcode, in any map. -/
theorem OpcodeMap.code_of_lookup {m : OpcodeMap} {v : Nat} {i : Instr} (h : m.lookup v = some i) :
    m.code i = v := by
  simpa using List.find?_some h

/-- A value that selects no row is no row's opcode, and conversely. -/
theorem OpcodeMap.lookup_eq_none {m : OpcodeMap} {v : Nat} :
    m.lookup v = none ↔ ∀ i, m.code i ≠ v := by
  simp [OpcodeMap.lookup, List.find?_eq_none, Instr.mem_all]

theorem OpcodeMap.default_wf : OpcodeMap.default.wf = true := by decide

end Sys2Proof
end

