-- ==== Sys2Proof/Laws/State.lean ====
section
/-! SUPPORT. One lemma per field per update of State, so that no proof unfolds a record update. -/

namespace Sys2Proof.Machine

variable (s : State)

/-! ### setPc -/

@[simp] theorem State.setPc_pc (a : Addr) : (s.setPc a).pc = a := rfl
@[simp] theorem State.setPc_sp (a : Addr) : (s.setPc a).sp = s.sp := rfl
@[simp] theorem State.setPc_ir (a : Addr) : (s.setPc a).ir = s.ir := rfl
@[simp] theorem State.setPc_xReg (a : Addr) : (s.setPc a).xReg = s.xReg := rfl
@[simp] theorem State.setPc_yReg (a : Addr) : (s.setPc a).yReg = s.yReg := rfl
@[simp] theorem State.setPc_acc (a : Addr) : (s.setPc a).acc = s.acc := rfl
@[simp] theorem State.setPc_sReg (a : Addr) : (s.setPc a).sReg = s.sReg := rfl
@[simp] theorem State.setPc_step (a : Addr) : (s.setPc a).step = s.step := rfl
@[simp] theorem State.setPc_decodedByte1 (a : Addr) : (s.setPc a).decodedByte1 = s.decodedByte1 := rfl
@[simp] theorem State.setPc_decodedByte2 (a : Addr) : (s.setPc a).decodedByte2 = s.decodedByte2 := rfl
@[simp] theorem State.setPc_opComplete (a : Addr) : (s.setPc a).opComplete = s.opComplete := rfl
@[simp] theorem State.setPc_cycle (a : Addr) : (s.setPc a).cycle = s.cycle := rfl
@[simp] theorem State.setPc_trace (a : Addr) : (s.setPc a).trace = s.trace := rfl
@[simp] theorem State.setPc_halted (a : Addr) : (s.setPc a).halted = s.halted := rfl
@[simp] theorem State.setPc_console (a : Addr) : (s.setPc a).console = s.console := rfl
@[simp] theorem State.setPc_reports (a : Addr) : (s.setPc a).reports = s.reports := rfl
@[simp] theorem State.setPc_shutdown (a : Addr) : (s.setPc a).shutdown = s.shutdown := rfl
@[simp] theorem State.setPc_traceDumps (a : Addr) : (s.setPc a).traceDumps = s.traceDumps := rfl
@[simp] theorem State.setPc_mem (a : Addr) : (s.setPc a).mem = s.mem := rfl
@[simp] theorem State.setPc_irqPending (a : Addr) : (s.setPc a).irqPending = s.irqPending := rfl
@[simp] theorem State.setPc_irqFuture (a : Addr) : (s.setPc a).irqFuture = s.irqFuture := rfl
@[simp] theorem State.setPc_irqSource (a : Addr) : (s.setPc a).irqSource = s.irqSource := rfl
@[simp] theorem State.setPc_opcodeMap (a : Addr) : (s.setPc a).opcodeMap = s.opcodeMap := rfl
@[simp] theorem State.setPc_diag (a : Addr) : (s.setPc a).diag = s.diag := rfl

/-! ### setSp -/

@[simp] theorem State.setSp_pc (a : Addr) : (s.setSp a).pc = s.pc := rfl
@[simp] theorem State.setSp_sp (a : Addr) : (s.setSp a).sp = a := rfl
@[simp] theorem State.setSp_ir (a : Addr) : (s.setSp a).ir = s.ir := rfl
@[simp] theorem State.setSp_xReg (a : Addr) : (s.setSp a).xReg = s.xReg := rfl
@[simp] theorem State.setSp_yReg (a : Addr) : (s.setSp a).yReg = s.yReg := rfl
@[simp] theorem State.setSp_acc (a : Addr) : (s.setSp a).acc = s.acc := rfl
@[simp] theorem State.setSp_sReg (a : Addr) : (s.setSp a).sReg = s.sReg := rfl
@[simp] theorem State.setSp_step (a : Addr) : (s.setSp a).step = s.step := rfl
@[simp] theorem State.setSp_decodedByte1 (a : Addr) : (s.setSp a).decodedByte1 = s.decodedByte1 := rfl
@[simp] theorem State.setSp_decodedByte2 (a : Addr) : (s.setSp a).decodedByte2 = s.decodedByte2 := rfl
@[simp] theorem State.setSp_opComplete (a : Addr) : (s.setSp a).opComplete = s.opComplete := rfl
@[simp] theorem State.setSp_cycle (a : Addr) : (s.setSp a).cycle = s.cycle := rfl
@[simp] theorem State.setSp_trace (a : Addr) : (s.setSp a).trace = s.trace := rfl
@[simp] theorem State.setSp_halted (a : Addr) : (s.setSp a).halted = s.halted := rfl
@[simp] theorem State.setSp_console (a : Addr) : (s.setSp a).console = s.console := rfl
@[simp] theorem State.setSp_reports (a : Addr) : (s.setSp a).reports = s.reports := rfl
@[simp] theorem State.setSp_shutdown (a : Addr) : (s.setSp a).shutdown = s.shutdown := rfl
@[simp] theorem State.setSp_traceDumps (a : Addr) : (s.setSp a).traceDumps = s.traceDumps := rfl
@[simp] theorem State.setSp_mem (a : Addr) : (s.setSp a).mem = s.mem := rfl
@[simp] theorem State.setSp_irqPending (a : Addr) : (s.setSp a).irqPending = s.irqPending := rfl
@[simp] theorem State.setSp_irqFuture (a : Addr) : (s.setSp a).irqFuture = s.irqFuture := rfl
@[simp] theorem State.setSp_irqSource (a : Addr) : (s.setSp a).irqSource = s.irqSource := rfl
@[simp] theorem State.setSp_opcodeMap (a : Addr) : (s.setSp a).opcodeMap = s.opcodeMap := rfl
@[simp] theorem State.setSp_diag (a : Addr) : (s.setSp a).diag = s.diag := rfl

/-! ### setIr -/

@[simp] theorem State.setIr_pc (v : Nat) : (s.setIr v).pc = s.pc := rfl
@[simp] theorem State.setIr_sp (v : Nat) : (s.setIr v).sp = s.sp := rfl
@[simp] theorem State.setIr_ir (v : Nat) : (s.setIr v).ir = v := rfl
@[simp] theorem State.setIr_xReg (v : Nat) : (s.setIr v).xReg = s.xReg := rfl
@[simp] theorem State.setIr_yReg (v : Nat) : (s.setIr v).yReg = s.yReg := rfl
@[simp] theorem State.setIr_acc (v : Nat) : (s.setIr v).acc = s.acc := rfl
@[simp] theorem State.setIr_sReg (v : Nat) : (s.setIr v).sReg = s.sReg := rfl
@[simp] theorem State.setIr_step (v : Nat) : (s.setIr v).step = s.step := rfl
@[simp] theorem State.setIr_decodedByte1 (v : Nat) : (s.setIr v).decodedByte1 = s.decodedByte1 := rfl
@[simp] theorem State.setIr_decodedByte2 (v : Nat) : (s.setIr v).decodedByte2 = s.decodedByte2 := rfl
@[simp] theorem State.setIr_opComplete (v : Nat) : (s.setIr v).opComplete = s.opComplete := rfl
@[simp] theorem State.setIr_cycle (v : Nat) : (s.setIr v).cycle = s.cycle := rfl
@[simp] theorem State.setIr_trace (v : Nat) : (s.setIr v).trace = s.trace := rfl
@[simp] theorem State.setIr_halted (v : Nat) : (s.setIr v).halted = s.halted := rfl
@[simp] theorem State.setIr_console (v : Nat) : (s.setIr v).console = s.console := rfl
@[simp] theorem State.setIr_reports (v : Nat) : (s.setIr v).reports = s.reports := rfl
@[simp] theorem State.setIr_shutdown (v : Nat) : (s.setIr v).shutdown = s.shutdown := rfl
@[simp] theorem State.setIr_traceDumps (v : Nat) : (s.setIr v).traceDumps = s.traceDumps := rfl
@[simp] theorem State.setIr_mem (v : Nat) : (s.setIr v).mem = s.mem := rfl
@[simp] theorem State.setIr_irqPending (v : Nat) : (s.setIr v).irqPending = s.irqPending := rfl
@[simp] theorem State.setIr_irqFuture (v : Nat) : (s.setIr v).irqFuture = s.irqFuture := rfl
@[simp] theorem State.setIr_irqSource (v : Nat) : (s.setIr v).irqSource = s.irqSource := rfl
@[simp] theorem State.setIr_opcodeMap (v : Nat) : (s.setIr v).opcodeMap = s.opcodeMap := rfl
@[simp] theorem State.setIr_diag (v : Nat) : (s.setIr v).diag = s.diag := rfl

/-! ### setXReg -/

@[simp] theorem State.setXReg_pc (v : Nat) : (s.setXReg v).pc = s.pc := rfl
@[simp] theorem State.setXReg_sp (v : Nat) : (s.setXReg v).sp = s.sp := rfl
@[simp] theorem State.setXReg_ir (v : Nat) : (s.setXReg v).ir = s.ir := rfl
@[simp] theorem State.setXReg_xReg (v : Nat) : (s.setXReg v).xReg = v := rfl
@[simp] theorem State.setXReg_yReg (v : Nat) : (s.setXReg v).yReg = s.yReg := rfl
@[simp] theorem State.setXReg_acc (v : Nat) : (s.setXReg v).acc = s.acc := rfl
@[simp] theorem State.setXReg_sReg (v : Nat) : (s.setXReg v).sReg = s.sReg := rfl
@[simp] theorem State.setXReg_step (v : Nat) : (s.setXReg v).step = s.step := rfl
@[simp] theorem State.setXReg_decodedByte1 (v : Nat) : (s.setXReg v).decodedByte1 = s.decodedByte1 := rfl
@[simp] theorem State.setXReg_decodedByte2 (v : Nat) : (s.setXReg v).decodedByte2 = s.decodedByte2 := rfl
@[simp] theorem State.setXReg_opComplete (v : Nat) : (s.setXReg v).opComplete = s.opComplete := rfl
@[simp] theorem State.setXReg_cycle (v : Nat) : (s.setXReg v).cycle = s.cycle := rfl
@[simp] theorem State.setXReg_trace (v : Nat) : (s.setXReg v).trace = s.trace := rfl
@[simp] theorem State.setXReg_halted (v : Nat) : (s.setXReg v).halted = s.halted := rfl
@[simp] theorem State.setXReg_console (v : Nat) : (s.setXReg v).console = s.console := rfl
@[simp] theorem State.setXReg_reports (v : Nat) : (s.setXReg v).reports = s.reports := rfl
@[simp] theorem State.setXReg_shutdown (v : Nat) : (s.setXReg v).shutdown = s.shutdown := rfl
@[simp] theorem State.setXReg_traceDumps (v : Nat) : (s.setXReg v).traceDumps = s.traceDumps := rfl
@[simp] theorem State.setXReg_mem (v : Nat) : (s.setXReg v).mem = s.mem := rfl
@[simp] theorem State.setXReg_irqPending (v : Nat) : (s.setXReg v).irqPending = s.irqPending := rfl
@[simp] theorem State.setXReg_irqFuture (v : Nat) : (s.setXReg v).irqFuture = s.irqFuture := rfl
@[simp] theorem State.setXReg_irqSource (v : Nat) : (s.setXReg v).irqSource = s.irqSource := rfl
@[simp] theorem State.setXReg_opcodeMap (v : Nat) : (s.setXReg v).opcodeMap = s.opcodeMap := rfl
@[simp] theorem State.setXReg_diag (v : Nat) : (s.setXReg v).diag = s.diag := rfl

/-! ### setYReg -/

@[simp] theorem State.setYReg_pc (v : Nat) : (s.setYReg v).pc = s.pc := rfl
@[simp] theorem State.setYReg_sp (v : Nat) : (s.setYReg v).sp = s.sp := rfl
@[simp] theorem State.setYReg_ir (v : Nat) : (s.setYReg v).ir = s.ir := rfl
@[simp] theorem State.setYReg_xReg (v : Nat) : (s.setYReg v).xReg = s.xReg := rfl
@[simp] theorem State.setYReg_yReg (v : Nat) : (s.setYReg v).yReg = v := rfl
@[simp] theorem State.setYReg_acc (v : Nat) : (s.setYReg v).acc = s.acc := rfl
@[simp] theorem State.setYReg_sReg (v : Nat) : (s.setYReg v).sReg = s.sReg := rfl
@[simp] theorem State.setYReg_step (v : Nat) : (s.setYReg v).step = s.step := rfl
@[simp] theorem State.setYReg_decodedByte1 (v : Nat) : (s.setYReg v).decodedByte1 = s.decodedByte1 := rfl
@[simp] theorem State.setYReg_decodedByte2 (v : Nat) : (s.setYReg v).decodedByte2 = s.decodedByte2 := rfl
@[simp] theorem State.setYReg_opComplete (v : Nat) : (s.setYReg v).opComplete = s.opComplete := rfl
@[simp] theorem State.setYReg_cycle (v : Nat) : (s.setYReg v).cycle = s.cycle := rfl
@[simp] theorem State.setYReg_trace (v : Nat) : (s.setYReg v).trace = s.trace := rfl
@[simp] theorem State.setYReg_halted (v : Nat) : (s.setYReg v).halted = s.halted := rfl
@[simp] theorem State.setYReg_console (v : Nat) : (s.setYReg v).console = s.console := rfl
@[simp] theorem State.setYReg_reports (v : Nat) : (s.setYReg v).reports = s.reports := rfl
@[simp] theorem State.setYReg_shutdown (v : Nat) : (s.setYReg v).shutdown = s.shutdown := rfl
@[simp] theorem State.setYReg_traceDumps (v : Nat) : (s.setYReg v).traceDumps = s.traceDumps := rfl
@[simp] theorem State.setYReg_mem (v : Nat) : (s.setYReg v).mem = s.mem := rfl
@[simp] theorem State.setYReg_irqPending (v : Nat) : (s.setYReg v).irqPending = s.irqPending := rfl
@[simp] theorem State.setYReg_irqFuture (v : Nat) : (s.setYReg v).irqFuture = s.irqFuture := rfl
@[simp] theorem State.setYReg_irqSource (v : Nat) : (s.setYReg v).irqSource = s.irqSource := rfl
@[simp] theorem State.setYReg_opcodeMap (v : Nat) : (s.setYReg v).opcodeMap = s.opcodeMap := rfl
@[simp] theorem State.setYReg_diag (v : Nat) : (s.setYReg v).diag = s.diag := rfl

/-! ### setAcc -/

@[simp] theorem State.setAcc_pc (v : Nat) : (s.setAcc v).pc = s.pc := rfl
@[simp] theorem State.setAcc_sp (v : Nat) : (s.setAcc v).sp = s.sp := rfl
@[simp] theorem State.setAcc_ir (v : Nat) : (s.setAcc v).ir = s.ir := rfl
@[simp] theorem State.setAcc_xReg (v : Nat) : (s.setAcc v).xReg = s.xReg := rfl
@[simp] theorem State.setAcc_yReg (v : Nat) : (s.setAcc v).yReg = s.yReg := rfl
@[simp] theorem State.setAcc_acc (v : Nat) : (s.setAcc v).acc = v := rfl
@[simp] theorem State.setAcc_sReg (v : Nat) : (s.setAcc v).sReg = s.sReg := rfl
@[simp] theorem State.setAcc_step (v : Nat) : (s.setAcc v).step = s.step := rfl
@[simp] theorem State.setAcc_decodedByte1 (v : Nat) : (s.setAcc v).decodedByte1 = s.decodedByte1 := rfl
@[simp] theorem State.setAcc_decodedByte2 (v : Nat) : (s.setAcc v).decodedByte2 = s.decodedByte2 := rfl
@[simp] theorem State.setAcc_opComplete (v : Nat) : (s.setAcc v).opComplete = s.opComplete := rfl
@[simp] theorem State.setAcc_cycle (v : Nat) : (s.setAcc v).cycle = s.cycle := rfl
@[simp] theorem State.setAcc_trace (v : Nat) : (s.setAcc v).trace = s.trace := rfl
@[simp] theorem State.setAcc_halted (v : Nat) : (s.setAcc v).halted = s.halted := rfl
@[simp] theorem State.setAcc_console (v : Nat) : (s.setAcc v).console = s.console := rfl
@[simp] theorem State.setAcc_reports (v : Nat) : (s.setAcc v).reports = s.reports := rfl
@[simp] theorem State.setAcc_shutdown (v : Nat) : (s.setAcc v).shutdown = s.shutdown := rfl
@[simp] theorem State.setAcc_traceDumps (v : Nat) : (s.setAcc v).traceDumps = s.traceDumps := rfl
@[simp] theorem State.setAcc_mem (v : Nat) : (s.setAcc v).mem = s.mem := rfl
@[simp] theorem State.setAcc_irqPending (v : Nat) : (s.setAcc v).irqPending = s.irqPending := rfl
@[simp] theorem State.setAcc_irqFuture (v : Nat) : (s.setAcc v).irqFuture = s.irqFuture := rfl
@[simp] theorem State.setAcc_irqSource (v : Nat) : (s.setAcc v).irqSource = s.irqSource := rfl
@[simp] theorem State.setAcc_opcodeMap (v : Nat) : (s.setAcc v).opcodeMap = s.opcodeMap := rfl
@[simp] theorem State.setAcc_diag (v : Nat) : (s.setAcc v).diag = s.diag := rfl

/-! ### assertFlag -/

@[simp] theorem State.assertFlag_pc (f : Flag) : (s.assertFlag f).pc = s.pc := rfl
@[simp] theorem State.assertFlag_sp (f : Flag) : (s.assertFlag f).sp = s.sp := rfl
@[simp] theorem State.assertFlag_ir (f : Flag) : (s.assertFlag f).ir = s.ir := rfl
@[simp] theorem State.assertFlag_xReg (f : Flag) : (s.assertFlag f).xReg = s.xReg := rfl
@[simp] theorem State.assertFlag_yReg (f : Flag) : (s.assertFlag f).yReg = s.yReg := rfl
@[simp] theorem State.assertFlag_acc (f : Flag) : (s.assertFlag f).acc = s.acc := rfl
@[simp] theorem State.assertFlag_sReg (f : Flag) : (s.assertFlag f).sReg = f := rfl
@[simp] theorem State.assertFlag_step (f : Flag) : (s.assertFlag f).step = s.step := rfl
@[simp] theorem State.assertFlag_decodedByte1 (f : Flag) : (s.assertFlag f).decodedByte1 = s.decodedByte1 := rfl
@[simp] theorem State.assertFlag_decodedByte2 (f : Flag) : (s.assertFlag f).decodedByte2 = s.decodedByte2 := rfl
@[simp] theorem State.assertFlag_opComplete (f : Flag) : (s.assertFlag f).opComplete = s.opComplete := rfl
@[simp] theorem State.assertFlag_cycle (f : Flag) : (s.assertFlag f).cycle = s.cycle := rfl
@[simp] theorem State.assertFlag_trace (f : Flag) : (s.assertFlag f).trace = s.trace := rfl
@[simp] theorem State.assertFlag_halted (f : Flag) : (s.assertFlag f).halted = s.halted := rfl
@[simp] theorem State.assertFlag_console (f : Flag) : (s.assertFlag f).console = s.console := rfl
@[simp] theorem State.assertFlag_reports (f : Flag) : (s.assertFlag f).reports = s.reports := rfl
@[simp] theorem State.assertFlag_shutdown (f : Flag) : (s.assertFlag f).shutdown = s.shutdown := rfl
@[simp] theorem State.assertFlag_traceDumps (f : Flag) : (s.assertFlag f).traceDumps = s.traceDumps := rfl
@[simp] theorem State.assertFlag_mem (f : Flag) : (s.assertFlag f).mem = s.mem := rfl
@[simp] theorem State.assertFlag_irqPending (f : Flag) : (s.assertFlag f).irqPending = s.irqPending := rfl
@[simp] theorem State.assertFlag_irqFuture (f : Flag) : (s.assertFlag f).irqFuture = s.irqFuture := rfl
@[simp] theorem State.assertFlag_irqSource (f : Flag) : (s.assertFlag f).irqSource = s.irqSource := rfl
@[simp] theorem State.assertFlag_opcodeMap (f : Flag) : (s.assertFlag f).opcodeMap = s.opcodeMap := rfl
@[simp] theorem State.assertFlag_diag (f : Flag) : (s.assertFlag f).diag = s.diag := rfl

/-! ### latch1 -/

@[simp] theorem State.latch1_pc (v : Nat) : (s.latch1 v).pc = s.pc := rfl
@[simp] theorem State.latch1_sp (v : Nat) : (s.latch1 v).sp = s.sp := rfl
@[simp] theorem State.latch1_ir (v : Nat) : (s.latch1 v).ir = s.ir := rfl
@[simp] theorem State.latch1_xReg (v : Nat) : (s.latch1 v).xReg = s.xReg := rfl
@[simp] theorem State.latch1_yReg (v : Nat) : (s.latch1 v).yReg = s.yReg := rfl
@[simp] theorem State.latch1_acc (v : Nat) : (s.latch1 v).acc = s.acc := rfl
@[simp] theorem State.latch1_sReg (v : Nat) : (s.latch1 v).sReg = s.sReg := rfl
@[simp] theorem State.latch1_step (v : Nat) : (s.latch1 v).step = s.step := rfl
@[simp] theorem State.latch1_decodedByte1 (v : Nat) : (s.latch1 v).decodedByte1 = some v := rfl
@[simp] theorem State.latch1_decodedByte2 (v : Nat) : (s.latch1 v).decodedByte2 = s.decodedByte2 := rfl
@[simp] theorem State.latch1_opComplete (v : Nat) : (s.latch1 v).opComplete = s.opComplete := rfl
@[simp] theorem State.latch1_cycle (v : Nat) : (s.latch1 v).cycle = s.cycle := rfl
@[simp] theorem State.latch1_trace (v : Nat) : (s.latch1 v).trace = s.trace := rfl
@[simp] theorem State.latch1_halted (v : Nat) : (s.latch1 v).halted = s.halted := rfl
@[simp] theorem State.latch1_console (v : Nat) : (s.latch1 v).console = s.console := rfl
@[simp] theorem State.latch1_reports (v : Nat) : (s.latch1 v).reports = s.reports := rfl
@[simp] theorem State.latch1_shutdown (v : Nat) : (s.latch1 v).shutdown = s.shutdown := rfl
@[simp] theorem State.latch1_traceDumps (v : Nat) : (s.latch1 v).traceDumps = s.traceDumps := rfl
@[simp] theorem State.latch1_mem (v : Nat) : (s.latch1 v).mem = s.mem := rfl
@[simp] theorem State.latch1_irqPending (v : Nat) : (s.latch1 v).irqPending = s.irqPending := rfl
@[simp] theorem State.latch1_irqFuture (v : Nat) : (s.latch1 v).irqFuture = s.irqFuture := rfl
@[simp] theorem State.latch1_irqSource (v : Nat) : (s.latch1 v).irqSource = s.irqSource := rfl
@[simp] theorem State.latch1_opcodeMap (v : Nat) : (s.latch1 v).opcodeMap = s.opcodeMap := rfl
@[simp] theorem State.latch1_diag (v : Nat) : (s.latch1 v).diag = s.diag := rfl

/-! ### latch2 -/

@[simp] theorem State.latch2_pc (v : Nat) : (s.latch2 v).pc = s.pc := rfl
@[simp] theorem State.latch2_sp (v : Nat) : (s.latch2 v).sp = s.sp := rfl
@[simp] theorem State.latch2_ir (v : Nat) : (s.latch2 v).ir = s.ir := rfl
@[simp] theorem State.latch2_xReg (v : Nat) : (s.latch2 v).xReg = s.xReg := rfl
@[simp] theorem State.latch2_yReg (v : Nat) : (s.latch2 v).yReg = s.yReg := rfl
@[simp] theorem State.latch2_acc (v : Nat) : (s.latch2 v).acc = s.acc := rfl
@[simp] theorem State.latch2_sReg (v : Nat) : (s.latch2 v).sReg = s.sReg := rfl
@[simp] theorem State.latch2_step (v : Nat) : (s.latch2 v).step = s.step := rfl
@[simp] theorem State.latch2_decodedByte1 (v : Nat) : (s.latch2 v).decodedByte1 = s.decodedByte1 := rfl
@[simp] theorem State.latch2_decodedByte2 (v : Nat) : (s.latch2 v).decodedByte2 = some v := rfl
@[simp] theorem State.latch2_opComplete (v : Nat) : (s.latch2 v).opComplete = s.opComplete := rfl
@[simp] theorem State.latch2_cycle (v : Nat) : (s.latch2 v).cycle = s.cycle := rfl
@[simp] theorem State.latch2_trace (v : Nat) : (s.latch2 v).trace = s.trace := rfl
@[simp] theorem State.latch2_halted (v : Nat) : (s.latch2 v).halted = s.halted := rfl
@[simp] theorem State.latch2_console (v : Nat) : (s.latch2 v).console = s.console := rfl
@[simp] theorem State.latch2_reports (v : Nat) : (s.latch2 v).reports = s.reports := rfl
@[simp] theorem State.latch2_shutdown (v : Nat) : (s.latch2 v).shutdown = s.shutdown := rfl
@[simp] theorem State.latch2_traceDumps (v : Nat) : (s.latch2 v).traceDumps = s.traceDumps := rfl
@[simp] theorem State.latch2_mem (v : Nat) : (s.latch2 v).mem = s.mem := rfl
@[simp] theorem State.latch2_irqPending (v : Nat) : (s.latch2 v).irqPending = s.irqPending := rfl
@[simp] theorem State.latch2_irqFuture (v : Nat) : (s.latch2 v).irqFuture = s.irqFuture := rfl
@[simp] theorem State.latch2_irqSource (v : Nat) : (s.latch2 v).irqSource = s.irqSource := rfl
@[simp] theorem State.latch2_opcodeMap (v : Nat) : (s.latch2 v).opcodeMap = s.opcodeMap := rfl
@[simp] theorem State.latch2_diag (v : Nat) : (s.latch2 v).diag = s.diag := rfl

/-! ### setComplete -/

@[simp] theorem State.setComplete_pc : s.setComplete.pc = s.pc := rfl
@[simp] theorem State.setComplete_sp : s.setComplete.sp = s.sp := rfl
@[simp] theorem State.setComplete_ir : s.setComplete.ir = s.ir := rfl
@[simp] theorem State.setComplete_xReg : s.setComplete.xReg = s.xReg := rfl
@[simp] theorem State.setComplete_yReg : s.setComplete.yReg = s.yReg := rfl
@[simp] theorem State.setComplete_acc : s.setComplete.acc = s.acc := rfl
@[simp] theorem State.setComplete_sReg : s.setComplete.sReg = s.sReg := rfl
@[simp] theorem State.setComplete_step : s.setComplete.step = s.step := rfl
@[simp] theorem State.setComplete_decodedByte1 : s.setComplete.decodedByte1 = s.decodedByte1 := rfl
@[simp] theorem State.setComplete_decodedByte2 : s.setComplete.decodedByte2 = s.decodedByte2 := rfl
@[simp] theorem State.setComplete_opComplete : s.setComplete.opComplete = true := rfl
@[simp] theorem State.setComplete_cycle : s.setComplete.cycle = s.cycle := rfl
@[simp] theorem State.setComplete_trace : s.setComplete.trace = s.trace := rfl
@[simp] theorem State.setComplete_halted : s.setComplete.halted = s.halted := rfl
@[simp] theorem State.setComplete_console : s.setComplete.console = s.console := rfl
@[simp] theorem State.setComplete_reports : s.setComplete.reports = s.reports := rfl
@[simp] theorem State.setComplete_shutdown : s.setComplete.shutdown = s.shutdown := rfl
@[simp] theorem State.setComplete_traceDumps : s.setComplete.traceDumps = s.traceDumps := rfl
@[simp] theorem State.setComplete_mem : s.setComplete.mem = s.mem := rfl
@[simp] theorem State.setComplete_irqPending : s.setComplete.irqPending = s.irqPending := rfl
@[simp] theorem State.setComplete_irqFuture : s.setComplete.irqFuture = s.irqFuture := rfl
@[simp] theorem State.setComplete_irqSource : s.setComplete.irqSource = s.irqSource := rfl
@[simp] theorem State.setComplete_opcodeMap : s.setComplete.opcodeMap = s.opcodeMap := rfl
@[simp] theorem State.setComplete_diag : s.setComplete.diag = s.diag := rfl

/-! ### report -/

@[simp] theorem State.report_pc (r : Report) : (s.report r).pc = s.pc := rfl
@[simp] theorem State.report_sp (r : Report) : (s.report r).sp = s.sp := rfl
@[simp] theorem State.report_ir (r : Report) : (s.report r).ir = s.ir := rfl
@[simp] theorem State.report_xReg (r : Report) : (s.report r).xReg = s.xReg := rfl
@[simp] theorem State.report_yReg (r : Report) : (s.report r).yReg = s.yReg := rfl
@[simp] theorem State.report_acc (r : Report) : (s.report r).acc = s.acc := rfl
@[simp] theorem State.report_sReg (r : Report) : (s.report r).sReg = s.sReg := rfl
@[simp] theorem State.report_step (r : Report) : (s.report r).step = s.step := rfl
@[simp] theorem State.report_decodedByte1 (r : Report) : (s.report r).decodedByte1 = s.decodedByte1 := rfl
@[simp] theorem State.report_decodedByte2 (r : Report) : (s.report r).decodedByte2 = s.decodedByte2 := rfl
@[simp] theorem State.report_opComplete (r : Report) : (s.report r).opComplete = s.opComplete := rfl
@[simp] theorem State.report_cycle (r : Report) : (s.report r).cycle = s.cycle := rfl
@[simp] theorem State.report_trace (r : Report) : (s.report r).trace = s.trace := rfl
@[simp] theorem State.report_halted (r : Report) : (s.report r).halted = s.halted := rfl
@[simp] theorem State.report_console (r : Report) : (s.report r).console = s.console := rfl
@[simp] theorem State.report_reports (r : Report) : (s.report r).reports = s.reports ++ [r] := rfl
@[simp] theorem State.report_shutdown (r : Report) : (s.report r).shutdown = s.shutdown := rfl
@[simp] theorem State.report_traceDumps (r : Report) : (s.report r).traceDumps = s.traceDumps := rfl
@[simp] theorem State.report_mem (r : Report) : (s.report r).mem = s.mem := rfl
@[simp] theorem State.report_irqPending (r : Report) : (s.report r).irqPending = s.irqPending := rfl
@[simp] theorem State.report_irqFuture (r : Report) : (s.report r).irqFuture = s.irqFuture := rfl
@[simp] theorem State.report_irqSource (r : Report) : (s.report r).irqSource = s.irqSource := rfl
@[simp] theorem State.report_opcodeMap (r : Report) : (s.report r).opcodeMap = s.opcodeMap := rfl
@[simp] theorem State.report_diag (r : Report) : (s.report r).diag = s.diag := rfl

/-! ### emit -/

@[simp] theorem State.emit_pc (e : ConsoleEvent) : (s.emit e).pc = s.pc := rfl
@[simp] theorem State.emit_sp (e : ConsoleEvent) : (s.emit e).sp = s.sp := rfl
@[simp] theorem State.emit_ir (e : ConsoleEvent) : (s.emit e).ir = s.ir := rfl
@[simp] theorem State.emit_xReg (e : ConsoleEvent) : (s.emit e).xReg = s.xReg := rfl
@[simp] theorem State.emit_yReg (e : ConsoleEvent) : (s.emit e).yReg = s.yReg := rfl
@[simp] theorem State.emit_acc (e : ConsoleEvent) : (s.emit e).acc = s.acc := rfl
@[simp] theorem State.emit_sReg (e : ConsoleEvent) : (s.emit e).sReg = s.sReg := rfl
@[simp] theorem State.emit_step (e : ConsoleEvent) : (s.emit e).step = s.step := rfl
@[simp] theorem State.emit_decodedByte1 (e : ConsoleEvent) : (s.emit e).decodedByte1 = s.decodedByte1 := rfl
@[simp] theorem State.emit_decodedByte2 (e : ConsoleEvent) : (s.emit e).decodedByte2 = s.decodedByte2 := rfl
@[simp] theorem State.emit_opComplete (e : ConsoleEvent) : (s.emit e).opComplete = s.opComplete := rfl
@[simp] theorem State.emit_cycle (e : ConsoleEvent) : (s.emit e).cycle = s.cycle := rfl
@[simp] theorem State.emit_trace (e : ConsoleEvent) : (s.emit e).trace = s.trace := rfl
@[simp] theorem State.emit_halted (e : ConsoleEvent) : (s.emit e).halted = s.halted := rfl
@[simp] theorem State.emit_console (e : ConsoleEvent) : (s.emit e).console = s.console ++ [e] := rfl
@[simp] theorem State.emit_reports (e : ConsoleEvent) : (s.emit e).reports = s.reports := rfl
@[simp] theorem State.emit_shutdown (e : ConsoleEvent) : (s.emit e).shutdown = s.shutdown := rfl
@[simp] theorem State.emit_traceDumps (e : ConsoleEvent) : (s.emit e).traceDumps = s.traceDumps := rfl
@[simp] theorem State.emit_mem (e : ConsoleEvent) : (s.emit e).mem = s.mem := rfl
@[simp] theorem State.emit_irqPending (e : ConsoleEvent) : (s.emit e).irqPending = s.irqPending := rfl
@[simp] theorem State.emit_irqFuture (e : ConsoleEvent) : (s.emit e).irqFuture = s.irqFuture := rfl
@[simp] theorem State.emit_irqSource (e : ConsoleEvent) : (s.emit e).irqSource = s.irqSource := rfl
@[simp] theorem State.emit_opcodeMap (e : ConsoleEvent) : (s.emit e).opcodeMap = s.opcodeMap := rfl
@[simp] theorem State.emit_diag (e : ConsoleEvent) : (s.emit e).diag = s.diag := rfl

/-! ### memWrite -/

@[simp] theorem State.memWrite_pc (a : Addr) (v : Nat) : (s.memWrite a v).pc = s.pc := rfl
@[simp] theorem State.memWrite_sp (a : Addr) (v : Nat) : (s.memWrite a v).sp = s.sp := rfl
@[simp] theorem State.memWrite_ir (a : Addr) (v : Nat) : (s.memWrite a v).ir = s.ir := rfl
@[simp] theorem State.memWrite_xReg (a : Addr) (v : Nat) : (s.memWrite a v).xReg = s.xReg := rfl
@[simp] theorem State.memWrite_yReg (a : Addr) (v : Nat) : (s.memWrite a v).yReg = s.yReg := rfl
@[simp] theorem State.memWrite_acc (a : Addr) (v : Nat) : (s.memWrite a v).acc = s.acc := rfl
@[simp] theorem State.memWrite_sReg (a : Addr) (v : Nat) : (s.memWrite a v).sReg = s.sReg := rfl
@[simp] theorem State.memWrite_step (a : Addr) (v : Nat) : (s.memWrite a v).step = s.step := rfl
@[simp] theorem State.memWrite_decodedByte1 (a : Addr) (v : Nat) : (s.memWrite a v).decodedByte1 = s.decodedByte1 := rfl
@[simp] theorem State.memWrite_decodedByte2 (a : Addr) (v : Nat) : (s.memWrite a v).decodedByte2 = s.decodedByte2 := rfl
@[simp] theorem State.memWrite_opComplete (a : Addr) (v : Nat) : (s.memWrite a v).opComplete = s.opComplete := rfl
@[simp] theorem State.memWrite_cycle (a : Addr) (v : Nat) : (s.memWrite a v).cycle = s.cycle := rfl
@[simp] theorem State.memWrite_trace (a : Addr) (v : Nat) : (s.memWrite a v).trace = s.trace := rfl
@[simp] theorem State.memWrite_halted (a : Addr) (v : Nat) : (s.memWrite a v).halted = s.halted := rfl
@[simp] theorem State.memWrite_console (a : Addr) (v : Nat) : (s.memWrite a v).console = s.console := rfl
@[simp] theorem State.memWrite_reports (a : Addr) (v : Nat) : (s.memWrite a v).reports = s.reports := rfl
@[simp] theorem State.memWrite_shutdown (a : Addr) (v : Nat) : (s.memWrite a v).shutdown = s.shutdown := rfl
@[simp] theorem State.memWrite_traceDumps (a : Addr) (v : Nat) : (s.memWrite a v).traceDumps = s.traceDumps := rfl
@[simp] theorem State.memWrite_mem (a : Addr) (v : Nat) : (s.memWrite a v).mem = Memory.write s.mem a.toNat v := rfl
@[simp] theorem State.memWrite_irqPending (a : Addr) (v : Nat) : (s.memWrite a v).irqPending = s.irqPending := rfl
@[simp] theorem State.memWrite_irqFuture (a : Addr) (v : Nat) : (s.memWrite a v).irqFuture = s.irqFuture := rfl
@[simp] theorem State.memWrite_irqSource (a : Addr) (v : Nat) : (s.memWrite a v).irqSource = s.irqSource := rfl
@[simp] theorem State.memWrite_opcodeMap (a : Addr) (v : Nat) : (s.memWrite a v).opcodeMap = s.opcodeMap := rfl
@[simp] theorem State.memWrite_diag (a : Addr) (v : Nat) : (s.memWrite a v).diag = s.diag := rfl

/-! ### traceAppend -/

@[simp] theorem State.traceAppend_pc : s.traceAppend.pc = s.pc := rfl
@[simp] theorem State.traceAppend_sp : s.traceAppend.sp = s.sp := rfl
@[simp] theorem State.traceAppend_ir : s.traceAppend.ir = s.ir := rfl
@[simp] theorem State.traceAppend_xReg : s.traceAppend.xReg = s.xReg := rfl
@[simp] theorem State.traceAppend_yReg : s.traceAppend.yReg = s.yReg := rfl
@[simp] theorem State.traceAppend_acc : s.traceAppend.acc = s.acc := rfl
@[simp] theorem State.traceAppend_sReg : s.traceAppend.sReg = s.sReg := rfl
@[simp] theorem State.traceAppend_step : s.traceAppend.step = s.step := rfl
@[simp] theorem State.traceAppend_decodedByte1 : s.traceAppend.decodedByte1 = s.decodedByte1 := rfl
@[simp] theorem State.traceAppend_decodedByte2 : s.traceAppend.decodedByte2 = s.decodedByte2 := rfl
@[simp] theorem State.traceAppend_opComplete : s.traceAppend.opComplete = s.opComplete := rfl
@[simp] theorem State.traceAppend_cycle : s.traceAppend.cycle = s.cycle := rfl
@[simp] theorem State.traceAppend_trace : s.traceAppend.trace = s.trace ++ [s.snapshot] := rfl
@[simp] theorem State.traceAppend_halted : s.traceAppend.halted = s.halted := rfl
@[simp] theorem State.traceAppend_console : s.traceAppend.console = s.console := rfl
@[simp] theorem State.traceAppend_reports : s.traceAppend.reports = s.reports := rfl
@[simp] theorem State.traceAppend_shutdown : s.traceAppend.shutdown = s.shutdown := rfl
@[simp] theorem State.traceAppend_traceDumps : s.traceAppend.traceDumps = s.traceDumps := rfl
@[simp] theorem State.traceAppend_mem : s.traceAppend.mem = s.mem := rfl
@[simp] theorem State.traceAppend_irqPending : s.traceAppend.irqPending = s.irqPending := rfl
@[simp] theorem State.traceAppend_irqFuture : s.traceAppend.irqFuture = s.irqFuture := rfl
@[simp] theorem State.traceAppend_irqSource : s.traceAppend.irqSource = s.irqSource := rfl
@[simp] theorem State.traceAppend_opcodeMap : s.traceAppend.opcodeMap = s.opcodeMap := rfl
@[simp] theorem State.traceAppend_diag : s.traceAppend.diag = s.diag := rfl

/-! ### requestShutdown -/

@[simp] theorem State.requestShutdown_pc : s.requestShutdown.pc = s.pc := rfl
@[simp] theorem State.requestShutdown_sp : s.requestShutdown.sp = s.sp := rfl
@[simp] theorem State.requestShutdown_ir : s.requestShutdown.ir = s.ir := rfl
@[simp] theorem State.requestShutdown_xReg : s.requestShutdown.xReg = s.xReg := rfl
@[simp] theorem State.requestShutdown_yReg : s.requestShutdown.yReg = s.yReg := rfl
@[simp] theorem State.requestShutdown_acc : s.requestShutdown.acc = s.acc := rfl
@[simp] theorem State.requestShutdown_sReg : s.requestShutdown.sReg = s.sReg := rfl
@[simp] theorem State.requestShutdown_step : s.requestShutdown.step = s.step := rfl
@[simp] theorem State.requestShutdown_decodedByte1 : s.requestShutdown.decodedByte1 = s.decodedByte1 := rfl
@[simp] theorem State.requestShutdown_decodedByte2 : s.requestShutdown.decodedByte2 = s.decodedByte2 := rfl
@[simp] theorem State.requestShutdown_opComplete : s.requestShutdown.opComplete = s.opComplete := rfl
@[simp] theorem State.requestShutdown_cycle : s.requestShutdown.cycle = s.cycle := rfl
@[simp] theorem State.requestShutdown_trace : s.requestShutdown.trace = s.trace := rfl
@[simp] theorem State.requestShutdown_halted : s.requestShutdown.halted = true := rfl
@[simp] theorem State.requestShutdown_console : s.requestShutdown.console = s.console := rfl
@[simp] theorem State.requestShutdown_reports : s.requestShutdown.reports = s.reports := rfl
@[simp] theorem State.requestShutdown_shutdown : s.requestShutdown.shutdown = s.shutdown ++ [.requestShutdown] := rfl
@[simp] theorem State.requestShutdown_traceDumps : s.requestShutdown.traceDumps = s.traceDumps := rfl
@[simp] theorem State.requestShutdown_mem : s.requestShutdown.mem = s.mem := rfl
@[simp] theorem State.requestShutdown_irqPending : s.requestShutdown.irqPending = s.irqPending := rfl
@[simp] theorem State.requestShutdown_irqFuture : s.requestShutdown.irqFuture = s.irqFuture := rfl
@[simp] theorem State.requestShutdown_irqSource : s.requestShutdown.irqSource = s.irqSource := rfl
@[simp] theorem State.requestShutdown_opcodeMap : s.requestShutdown.opcodeMap = s.opcodeMap := rfl
@[simp] theorem State.requestShutdown_diag : s.requestShutdown.diag = s.diag := rfl

/-! ### tick -/

@[simp] theorem State.tick_pc : s.tick.pc = s.pc := rfl
@[simp] theorem State.tick_sp : s.tick.sp = s.sp := rfl
@[simp] theorem State.tick_ir : s.tick.ir = s.ir := rfl
@[simp] theorem State.tick_xReg : s.tick.xReg = s.xReg := rfl
@[simp] theorem State.tick_yReg : s.tick.yReg = s.yReg := rfl
@[simp] theorem State.tick_acc : s.tick.acc = s.acc := rfl
@[simp] theorem State.tick_sReg : s.tick.sReg = s.sReg := rfl
@[simp] theorem State.tick_step : s.tick.step = s.step + 1 := rfl
@[simp] theorem State.tick_decodedByte1 : s.tick.decodedByte1 = s.decodedByte1 := rfl
@[simp] theorem State.tick_decodedByte2 : s.tick.decodedByte2 = s.decodedByte2 := rfl
@[simp] theorem State.tick_opComplete : s.tick.opComplete = s.opComplete := rfl
@[simp] theorem State.tick_cycle : s.tick.cycle = s.cycle + 1 := rfl
@[simp] theorem State.tick_trace : s.tick.trace = s.trace := rfl
@[simp] theorem State.tick_halted : s.tick.halted = s.halted := rfl
@[simp] theorem State.tick_console : s.tick.console = s.console := rfl
@[simp] theorem State.tick_reports : s.tick.reports = s.reports := rfl
@[simp] theorem State.tick_shutdown : s.tick.shutdown = s.shutdown := rfl
@[simp] theorem State.tick_traceDumps : s.tick.traceDumps = s.traceDumps := rfl
@[simp] theorem State.tick_mem : s.tick.mem = s.mem := rfl
@[simp] theorem State.tick_irqPending : s.tick.irqPending = s.nextAnswer := rfl
@[simp] theorem State.tick_irqFuture : s.tick.irqFuture = s.irqFuture.tail := rfl
@[simp] theorem State.tick_irqSource : s.tick.irqSource = s.irqSource := rfl
@[simp] theorem State.tick_opcodeMap : s.tick.opcodeMap = s.opcodeMap := rfl
@[simp] theorem State.tick_diag : s.tick.diag = s.diag := rfl

end Sys2Proof.Machine
end

