-- ==== Sys2Proof/Laws/Ops.lean ====
section
/-! SUPPORT. One lemma for each shared operation of the pulse, its decode calls and its schedules: what
the operation can do, said once. -/

namespace Sys2Proof.Machine

open Sys2Proof

variable (s : State)

/-! ### Reading the store does not depend on anything but the store -/

theorem State.memRead_congr {s t : State} (h : s.mem = t.mem) (a : Addr) : s.memRead a = t.memRead a := by
  rw [State.memRead, State.memRead, h]

/-! ### The parts of the pulse, as one record update each -/

theorem State.fetch_eq : s.fetch = { s with pc := s.fetchAddr, ir := s.memRead s.fetchAddr } := rfl

theorem State.fetchPulse_eq :
    s.fetchPulse =
      { s with pc := s.fetchAddr, ir := s.memRead s.fetchAddr, trace := s.trace ++ [s.fetch.snapshot] } := rfl

/-- The interrupt check writes `sReg` and `opComplete` and nothing else. -/
theorem State.interruptCheck_eq :
    s.interruptCheck = { s with sReg := if s.irqPending then .I else s.sReg, opComplete := true } := rfl

theorem State.illegalOpcode_eq :
    s.illegalOpcode = { s with reports := s.reports ++ [.illegalOpcode s.ir], sReg := .B } := rfl

theorem State.completionReset_eq :
    s.completionReset =
      { s with
        step := if s.opComplete then 0 else s.step
        decodedByte1 := if s.opComplete then none else s.decodedByte1
        decodedByte2 := if s.opComplete then none else s.decodedByte2
        opComplete := false } := by
  unfold State.completionReset
  by_cases h : s.opComplete = true
  · simp [h]
  · cases s
    simp_all

theorem State.haltCheck_eq :
    s.haltCheck =
      { s with
        traceDumps := if s.sReg = .B ∧ s.diag = true then s.traceDumps ++ [s.trace] else s.traceDumps
        shutdown := if s.sReg = .B then s.shutdown ++ [.requestShutdown] else s.shutdown
        halted := if s.sReg = .B then true else s.halted } := by
  unfold State.haltCheck State.dumpTrace
  by_cases h : s.sReg = .B
  · by_cases hd : s.diag = true
    · simp [h, hd, State.requestShutdown]
    · simp [h, hd, State.requestShutdown]
  · simp [h]

/-- Everything the end of a pulse does to the state after the handler. -/
theorem State.finishPulse_eq :
    s.finishPulse =
      { s with
        trace := s.trace ++ [s.snapshot]
        step := if s.opComplete then 0 else s.step
        decodedByte1 := if s.opComplete then none else s.decodedByte1
        decodedByte2 := if s.opComplete then none else s.decodedByte2
        opComplete := false
        traceDumps :=
          if s.sReg = .B ∧ s.diag = true then s.traceDumps ++ [s.trace ++ [s.snapshot]] else s.traceDumps
        shutdown := if s.sReg = .B then s.shutdown ++ [.requestShutdown] else s.shutdown
        halted := if s.sReg = .B then true else s.halted } := by
  rw [State.finishPulse, State.haltCheck_eq, State.completionReset_eq]
  rfl

/-! ### The decode calls -/

theorem State.decodeImm_eq :
    s.decodeImm = { s with pc := nextAddr s.pc, decodedByte1 := some (s.memRead (nextAddr s.pc)) } := rfl

/-- The first call of the address decode. -/
theorem State.decodeAbs_first (h : s.decodedByte1 = none) :
    s.decodeAbs = { s with pc := nextAddr s.pc, decodedByte1 := some (s.memRead (nextAddr s.pc)) } := by
  simp [State.decodeAbs, h, State.setPc, State.latch1, State.memRead]

/-- The second call of the address decode. -/
theorem State.decodeAbs_second {lo : Nat} (h : s.decodedByte1 = some lo) :
    s.decodeAbs =
      { s with
        pc := nextAddr s.pc
        decodedByte2 := some (s.memRead (nextAddr s.pc))
        sp := compose lo (s.memRead (nextAddr s.pc)) } := by
  simp [State.decodeAbs, h, State.setPc, State.setSp, State.latch2, State.memRead]

/-- Either call of the address decode, as one record update. -/
theorem State.decodeAbs_eq :
    s.decodeAbs =
      { s with
        pc := nextAddr s.pc
        decodedByte1 := some (s.decodedByte1.getD (s.memRead (nextAddr s.pc)))
        decodedByte2 :=
          if s.decodedByte1.isSome then some (s.memRead (nextAddr s.pc)) else s.decodedByte2
        sp := s.decodedByte1.elim s.sp (fun lo => compose lo (s.memRead (nextAddr s.pc))) } := by
  cases h : s.decodedByte1 with
  | none =>
    rw [s.decodeAbs_first h]
    simp
  | some lo =>
    rw [s.decodeAbs_second h]
    cases s
    simp_all

theorem State.operand_eq {s : State} {k : Nat} (h : s.decodedByte1 = some k) : s.operand = k := by
  simp [State.operand, h]

/-! ### The flag computations and SYS's action -/

theorem State.overflowFlag_eq :
    s.overflowFlag =
      { s with
        sReg := if s.acc > adcLimit then .V else s.sReg
        reports := if s.acc > adcLimit then s.reports ++ [.overflowWarning s.acc] else s.reports } := by
  unfold State.overflowFlag
  split <;> rfl

theorem State.compareFlag_eq (m : Nat) :
    s.compareFlag m = { s with sReg := if s.xReg = m then .Z else s.sReg } := by
  unfold State.compareFlag
  split <;> rfl

theorem State.sysCall_eq :
    s.sysCall =
      { s with
        console :=
          if s.xReg = 1 then s.console ++ [.dec s.yReg]
          else if s.xReg = 2 then s.console ++ [.chr s.operand] else s.console
        reports :=
          if s.xReg = 1 then s.reports
          else if s.xReg = 2 then s.reports else s.reports ++ [.unsupportedSys s.xReg] } := by
  unfold State.sysCall
  split
  · rfl
  · split <;> rfl

/-! ### The schedules: which state each step answers -/

theorem impSchedule_next {last : State → State} {s t : State} (h : impSchedule last s = .next t) :
    (s.step = 2 ∧ t = s) ∨ (s.step = 3 ∧ t = last s) ∨
      ((s.step < 2 ∨ 3 < s.step) ∧ t = s.stepRangeError) := by
  unfold impSchedule at h
  split at h <;> cases h <;> simp_all
  omega

theorem regSchedule_next {source : State → Nat} {action : State → State} {s t : State}
    (h : regSchedule source action s = .next t) :
    (s.step = 2 ∧ t = s.latch1 (source s)) ∨ (s.step = 3 ∧ t = action s) ∨
      (s.step = 4 ∧ t = s.interruptCheck) ∨ ((s.step < 2 ∨ 4 < s.step) ∧ t = s.stepRangeError) := by
  unfold regSchedule at h
  split at h <;> cases h <;> simp_all [State.decodeReg]
  omega

theorem immSchedule_next {action : State → State} {s t : State} (h : immSchedule action s = .next t) :
    (s.step = 2 ∧ t = s.decodeImm) ∨ (s.step = 3 ∧ t = action s) ∨
      (s.step = 4 ∧ t = s.interruptCheck) ∨ ((s.step < 2 ∨ 4 < s.step) ∧ t = s.stepRangeError) := by
  unfold immSchedule at h
  split at h <;> cases h <;> simp_all
  omega

theorem absSchedule_next {action : State → State} {s t : State} (h : absSchedule action s = .next t) :
    ((s.step = 2 ∨ s.step = 3) ∧ t = s.decodeAbs) ∨ (s.step = 4 ∧ t = action s) ∨
      (s.step = 5 ∧ t = s.interruptCheck) ∨ ((s.step < 2 ∨ 5 < s.step) ∧ t = s.stepRangeError) := by
  unfold absSchedule at h
  split at h <;> cases h <;> simp_all
  omega

theorem rmwSchedule_next {read modify write : State → State} {s t : State}
    (h : rmwSchedule read modify write s = .next t) :
    ((s.step = 2 ∨ s.step = 3) ∧ t = s.decodeAbs) ∨ (s.step = 4 ∧ t = read s) ∨
      (s.step = 5 ∧ t = modify s) ∨ (s.step = 6 ∧ t = write s) ∨
      (s.step = 7 ∧ t = s.interruptCheck) ∨ ((s.step < 2 ∨ 7 < s.step) ∧ t = s.stepRangeError) := by
  unfold rmwSchedule at h
  split at h <;> cases h <;> simp_all
  omega

end Sys2Proof.Machine
end

