-- ==== Sys2Proof/Laws/Exec.lean ====
section
/-! SUPPORT. What one pulse of a handler can do, said once for all eighteen rows. -/

namespace Sys2Proof.Machine

open Sys2Proof

/-! ### Each row's handler as its schedule -/

theorem exec_ldaImm (s : State) :
    exec .ldaImm s = immSchedule (fun t => t.setAcc t.operand) s := rfl
theorem exec_lda (s : State) :
    exec .lda s = absSchedule (fun t => t.setAcc (t.memRead t.sp)) s := rfl
theorem exec_sta (s : State) :
    exec .sta s = absSchedule (fun t => t.memWrite t.sp t.acc) s := rfl
theorem exec_txa (s : State) :
    exec .txa s = regSchedule (fun t => t.xReg) (fun t => t.setAcc t.operand) s := rfl
theorem exec_tya (s : State) :
    exec .tya s = regSchedule (fun t => t.yReg) (fun t => t.setAcc t.operand) s := rfl
theorem exec_adc (s : State) :
    exec .adc s = absSchedule (fun t => (t.setAcc (t.acc + t.memRead t.sp)).overflowFlag) s := rfl
theorem exec_ldxImm (s : State) :
    exec .ldxImm s = immSchedule (fun t => t.setXReg t.operand) s := rfl
theorem exec_ldx (s : State) :
    exec .ldx s = absSchedule (fun t => t.setXReg (t.memRead t.sp)) s := rfl
theorem exec_tax (s : State) :
    exec .tax s = regSchedule (fun t => t.acc) (fun t => t.setXReg t.operand) s := rfl
theorem exec_ldyImm (s : State) :
    exec .ldyImm s = immSchedule (fun t => t.setYReg t.operand) s := rfl
theorem exec_ldy (s : State) :
    exec .ldy s = absSchedule (fun t => t.setYReg (t.memRead t.sp)) s := rfl
theorem exec_tay (s : State) :
    exec .tay s = regSchedule (fun t => t.acc) (fun t => t.setYReg t.operand) s := rfl
theorem exec_nop (s : State) :
    exec .nop s = impSchedule (fun t => t.interruptCheck) s := rfl
theorem exec_brk (s : State) :
    exec .brk s = impSchedule (fun t => t.interruptCheck.assertFlag .B) s := rfl
theorem exec_cpx (s : State) :
    exec .cpx s = absSchedule (fun t => t.compareFlag (t.memRead t.sp)) s := rfl
theorem exec_bne (s : State) :
    exec .bne s = immSchedule (fun t => if t.branchTaken then t.setPc (branchTarget t.pc t.operand) else t) s := rfl
theorem exec_inc (s : State) :
    exec .inc s = rmwSchedule (fun t => t.setAcc (t.memRead t.sp)) (fun t => t.setAcc (t.acc + 1)) (fun t => t.memWrite t.sp t.acc) s := rfl
theorem exec_sys (s : State) :
    exec .sys s = regSchedule (fun t => t.yReg) State.sysCall s := rfl

/-- The next states a handler can answer: `HandlerPulse i s t` lists, for row `i` in state `s`, the step
and the update that gives `t`. -/
inductive HandlerPulse : Instr → State → State → Prop
  | stepRange {i s} (h : s.step < 2 ∨ stepCount i < s.step) : HandlerPulse i s s.stepRangeError
  | lastCheck {i s} (h : s.step = stepCount i) (hb : i ≠ .brk) : HandlerPulse i s s.interruptCheck
  | decodeImm {i s} (hf : i.format = .imm) (h : s.step = 2) : HandlerPulse i s s.decodeImm
  | decodeAbs {i s} (hf : i.format = .abs) (h : s.step = 2 ∨ s.step = 3) : HandlerPulse i s s.decodeAbs
  | decodeReg {i s} (v : Nat) (hf : i.format = .reg) (h : s.step = 2) : HandlerPulse i s (s.latch1 v)
  | idle {i s} (hf : i.format = .imp) (h : s.step = 2) : HandlerPulse i s s
  | breakNow {s} (h : s.step = 3) : HandlerPulse .brk s (s.interruptCheck.assertFlag .B)
  | copyToAcc {i s} (hi : i ∈ [Instr.ldaImm, .txa, .tya]) (h : s.step = 3) :
      HandlerPulse i s (s.setAcc s.operand)
  | copyToX {i s} (hi : i ∈ [Instr.ldxImm, .tax]) (h : s.step = 3) : HandlerPulse i s (s.setXReg s.operand)
  | copyToY {i s} (hi : i ∈ [Instr.ldyImm, .tay]) (h : s.step = 3) : HandlerPulse i s (s.setYReg s.operand)
  | loadAcc {i s} (hi : i ∈ [Instr.lda, .inc]) (h : s.step = 4) :
      HandlerPulse i s (s.setAcc (s.memRead s.sp))
  | loadX {s} (h : s.step = 4) : HandlerPulse .ldx s (s.setXReg (s.memRead s.sp))
  | loadY {s} (h : s.step = 4) : HandlerPulse .ldy s (s.setYReg (s.memRead s.sp))
  | store {i s} (hi : (i = .sta ∧ s.step = 4) ∨ (i = .inc ∧ s.step = 6)) :
      HandlerPulse i s (s.memWrite s.sp s.acc)
  | successor {s} (h : s.step = 5) : HandlerPulse .inc s (s.setAcc (s.acc + 1))
  | add {s} (h : s.step = 4) : HandlerPulse .adc s (s.setAcc (s.acc + s.memRead s.sp)).overflowFlag
  | compare {s} (h : s.step = 4) : HandlerPulse .cpx s (s.compareFlag (s.memRead s.sp))
  | branch {s} (h : s.step = 3) :
      HandlerPulse .bne s (if s.branchTaken then s.setPc (branchTarget s.pc s.operand) else s)
  | sysCall {s} (h : s.step = 3) : HandlerPulse .sys s s.sysCall

theorem HandlerPulse.of_imm {i : Instr} {action : State → State} {s t : State}
    (h : immSchedule action s = .next t) (hf : i.format = .imm) (hn : stepCount i = 4) (hb : i ≠ .brk)
    (ha : s.step = 3 → HandlerPulse i s (action s)) : HandlerPulse i s t := by
  rcases immSchedule_next h with ⟨h2, rfl⟩ | ⟨h3, rfl⟩ | ⟨h4, rfl⟩ | ⟨hr, rfl⟩
  · exact .decodeImm hf h2
  · exact ha h3
  · exact .lastCheck (by omega) hb
  · exact .stepRange (by omega)

theorem HandlerPulse.of_reg {i : Instr} {source : State → Nat} {action : State → State} {s t : State}
    (h : regSchedule source action s = .next t) (hf : i.format = .reg) (hn : stepCount i = 4)
    (hb : i ≠ .brk) (ha : s.step = 3 → HandlerPulse i s (action s)) : HandlerPulse i s t := by
  rcases regSchedule_next h with ⟨h2, rfl⟩ | ⟨h3, rfl⟩ | ⟨h4, rfl⟩ | ⟨hr, rfl⟩
  · exact .decodeReg _ hf h2
  · exact ha h3
  · exact .lastCheck (by omega) hb
  · exact .stepRange (by omega)

theorem HandlerPulse.of_abs {i : Instr} {action : State → State} {s t : State}
    (h : absSchedule action s = .next t) (hf : i.format = .abs) (hn : stepCount i = 5) (hb : i ≠ .brk)
    (ha : s.step = 4 → HandlerPulse i s (action s)) : HandlerPulse i s t := by
  rcases absSchedule_next h with ⟨h2, rfl⟩ | ⟨h4, rfl⟩ | ⟨h5, rfl⟩ | ⟨hr, rfl⟩
  · exact .decodeAbs hf h2
  · exact ha h4
  · exact .lastCheck (by omega) hb
  · exact .stepRange (by omega)

/-- If a handler answers a next state, that state is one of `HandlerPulse`. -/
theorem exec_cases {i : Instr} {s t : State} (h : exec i s = .next t) : HandlerPulse i s t := by
  cases i with
  | ldaImm => rw [exec_ldaImm] at h; exact .of_imm h rfl rfl nofun (.copyToAcc (by simp))
  | lda => rw [exec_lda] at h; exact .of_abs h rfl rfl nofun (.loadAcc (by simp))
  | sta => rw [exec_sta] at h; exact .of_abs h rfl rfl nofun (fun h4 => .store (.inl ⟨rfl, h4⟩))
  | txa => rw [exec_txa] at h; exact .of_reg h rfl rfl nofun (.copyToAcc (by simp))
  | tya => rw [exec_tya] at h; exact .of_reg h rfl rfl nofun (.copyToAcc (by simp))
  | adc => rw [exec_adc] at h; exact .of_abs h rfl rfl nofun .add
  | ldxImm => rw [exec_ldxImm] at h; exact .of_imm h rfl rfl nofun (.copyToX (by simp))
  | ldx => rw [exec_ldx] at h; exact .of_abs h rfl rfl nofun .loadX
  | tax => rw [exec_tax] at h; exact .of_reg h rfl rfl nofun (.copyToX (by simp))
  | ldyImm => rw [exec_ldyImm] at h; exact .of_imm h rfl rfl nofun (.copyToY (by simp))
  | ldy => rw [exec_ldy] at h; exact .of_abs h rfl rfl nofun .loadY
  | tay => rw [exec_tay] at h; exact .of_reg h rfl rfl nofun (.copyToY (by simp))
  | nop =>
    rw [exec_nop] at h
    rcases impSchedule_next h with ⟨h2, rfl⟩ | ⟨h3, rfl⟩ | ⟨hr, rfl⟩
    · exact .idle rfl h2
    · exact .lastCheck h3 nofun
    · exact .stepRange hr
  | brk =>
    rw [exec_brk] at h
    rcases impSchedule_next h with ⟨h2, rfl⟩ | ⟨h3, rfl⟩ | ⟨hr, rfl⟩
    · exact .idle rfl h2
    · exact .breakNow h3
    · exact .stepRange hr
  | cpx => rw [exec_cpx] at h; exact .of_abs h rfl rfl nofun .compare
  | bne => rw [exec_bne] at h; exact .of_imm h rfl rfl nofun .branch
  | inc =>
    rw [exec_inc] at h
    rcases rmwSchedule_next h with ⟨h2, rfl⟩ | ⟨h4, rfl⟩ | ⟨h5, rfl⟩ | ⟨h6, rfl⟩ | ⟨h7, rfl⟩ | ⟨hr, rfl⟩
    · exact .decodeAbs rfl h2
    · exact .loadAcc (by simp) h4
    · exact .successor h5
    · exact .store (.inr ⟨rfl, h6⟩)
    · exact .lastCheck h7 nofun
    · exact .stepRange hr
  | sys => rw [exec_sys] at h; exact .of_reg h rfl rfl nofun .sysCall

/-- Every handler answers a next state, in every state. -/
theorem exec_isNext (i : Instr) (s : State) : ∃ t, exec i s = .next t := by
  cases i <;>
    simp only [exec_ldaImm, exec_lda, exec_sta, exec_txa, exec_tya, exec_adc, exec_ldxImm, exec_ldx, exec_tax, exec_ldyImm,
      exec_ldy, exec_tay, exec_nop, exec_brk, exec_cpx, exec_bne, exec_inc, exec_sys,
      immSchedule, absSchedule, regSchedule, impSchedule, rmwSchedule] <;>
    split <;> exact ⟨_, rfl⟩

end Sys2Proof.Machine
end

