-- ==== Sys2Proof/Laws/Memory.lean ====
section
/-! SUPPORT. The store: every write keeps the canonical form, and a read sees the last write. -/

namespace Sys2Proof.Machine

theorem Memory.wfFrom_cons (low a : Nat) (v : Nat) (m : Memory) :
    Memory.wfFrom low ((a, v) :: m) = true ↔
      low ≤ a ∧ a < 65536 ∧ v ≠ unlistedCell ∧ Memory.wfFrom (a + 1) m = true := by
  simp [Memory.wfFrom, and_assoc]

theorem Memory.wfFrom_mono {m : Memory} {low low' : Nat} (h : Memory.wfFrom low' m = true)
    (hl : low ≤ low') : Memory.wfFrom low m = true := by
  cases m with
  | nil => rfl
  | cons c m =>
    obtain ⟨a, v⟩ := c
    rw [Memory.wfFrom_cons] at h ⊢
    exact ⟨by omega, h.2⟩

/-- A write keeps the canonical form. -/
theorem Memory.wfFrom_write (m : Memory) (low a : Nat) (v : Nat) (h : Memory.wfFrom low m = true)
    (hl : low ≤ a) (ha : a < 65536) : Memory.wfFrom low (Memory.write m a v) = true := by
  induction m generalizing low with
  | nil =>
    unfold Memory.write
    split <;> simp_all [Memory.wfFrom]
  | cons c m ih =>
    obtain ⟨b, w⟩ := c
    have hc := (Memory.wfFrom_cons low b w m).1 h
    unfold Memory.write
    split
    · split
      · exact h
      · rw [Memory.wfFrom_cons, Memory.wfFrom_cons]
        exact ⟨hl, ha, by assumption, by omega, hc.2⟩
    · split
      · split
        · exact Memory.wfFrom_mono hc.2.2.2 (by omega)
        · subst_vars
          rw [Memory.wfFrom_cons]
          exact ⟨hl, ha, by assumption, hc.2.2.2⟩
      · rw [Memory.wfFrom_cons]
        exact ⟨hc.1, hc.2.1, hc.2.2.1, ih (b + 1) hc.2.2.2 (by omega)⟩

theorem Memory.wf_write {m : Memory} (h : m.wf = true) (a : Addr) (v : Nat) :
    Memory.wf (Memory.write m a.toNat v) = true :=
  Memory.wfFrom_write m 0 a.toNat v h (Nat.zero_le _) a.isLt

/-- Below the first listed address nothing is listed. -/
theorem Memory.read_below {m : Memory} {low a : Nat} (h : Memory.wfFrom low m = true) (ha : a < low) :
    Memory.read m a = unlistedCell := by
  induction m generalizing low with
  | nil => rfl
  | cons c m ih =>
    obtain ⟨b, w⟩ := c
    have hc := (Memory.wfFrom_cons low b w m).1 h
    rw [Memory.read, if_neg (by omega)]
    exact ih hc.2.2.2 (by omega)

/-- A read of the written cell gives the written value. -/
theorem Memory.read_write_same (m : Memory) (low a : Nat) (v : Nat) (h : Memory.wfFrom low m = true) :
    Memory.read (Memory.write m a v) a = v := by
  induction m generalizing low with
  | nil =>
    unfold Memory.write
    split <;> simp_all [Memory.read]
  | cons c m ih =>
    obtain ⟨b, w⟩ := c
    have hc := (Memory.wfFrom_cons low b w m).1 h
    unfold Memory.write
    split
    · split
      · rw [Memory.read, if_neg (by omega), Memory.read_below hc.2.2.2 (by omega)]
        exact Eq.symm (by assumption)
      · simp [Memory.read]
    · split
      · split
        · rw [Memory.read_below hc.2.2.2 (by omega)]
          exact Eq.symm (by assumption)
        · simp [Memory.read]
      · rw [Memory.read, if_neg (by omega)]
        exact ih (b + 1) hc.2.2.2

/-- A write leaves every other cell alone. -/
theorem Memory.read_write_other (m : Memory) (a b : Nat) (v : Nat) (hab : b ≠ a) :
    Memory.read (Memory.write m a v) b = Memory.read m b := by
  induction m with
  | nil =>
    unfold Memory.write
    split
    · rfl
    · simp [Memory.read, Ne.symm hab]
  | cons c m ih =>
    obtain ⟨d, w⟩ := c
    unfold Memory.write
    split
    · split
      · rfl
      · rw [Memory.read, if_neg (Ne.symm hab)]
    · split
      · subst_vars
        split
        · simp [Memory.read, Ne.symm hab]
        · simp [Memory.read, Ne.symm hab]
      · simp only [Memory.read, ih]

theorem State.memRead_memWrite_same {s : State} (h : s.mem.wf = true) (a : Addr) (v : Nat) :
    (s.memWrite a v).memRead a = v :=
  Memory.read_write_same s.mem 0 a.toNat v h

theorem State.memRead_memWrite_other (s : State) {a b : Addr} (v : Nat) (hab : b ≠ a) :
    (s.memWrite a v).memRead b = s.memRead b :=
  Memory.read_write_other s.mem a.toNat b.toNat v (fun h => hab (BitVec.eq_of_toNat_eq h))

/-- Two stores in canonical form that read alike are the same data. -/
theorem Memory.eq_of_read_eq {m n : Memory} {low : Nat} (hm : Memory.wfFrom low m = true)
    (hn : Memory.wfFrom low n = true) (h : ∀ a, Memory.read m a = Memory.read n a) : m = n := by
  induction m generalizing n low with
  | nil =>
    cases n with
    | nil => rfl
    | cons d n =>
      obtain ⟨b, w⟩ := d
      have hd := (Memory.wfFrom_cons low b w n).1 hn
      exact absurd (by simpa [Memory.read] using (h b).symm) hd.2.2.1
  | cons c m ih =>
    obtain ⟨a, v⟩ := c
    have hc := (Memory.wfFrom_cons low a v m).1 hm
    cases n with
    | nil => exact absurd (by simpa [Memory.read] using h a) hc.2.2.1
    | cons d n =>
      obtain ⟨b, w⟩ := d
      have hd := (Memory.wfFrom_cons low b w n).1 hn
      rcases Nat.lt_trichotomy a b with hlt | heq | hgt
      · have hr := h a
        rw [Memory.read, if_pos rfl, Memory.read, if_neg (by omega), Memory.read_below hd.2.2.2 (by omega)] at hr
        exact absurd hr hc.2.2.1
      · subst heq
        have hv : v = w := by simpa [Memory.read] using h a
        subst hv
        rw [ih hc.2.2.2 hd.2.2.2]
        intro x
        by_cases hx : x ≤ a
        · rw [Memory.read_below hc.2.2.2 (by omega), Memory.read_below hd.2.2.2 (by omega)]
        · have hr := h x
          rwa [Memory.read, if_neg (by omega), Memory.read, if_neg (by omega)] at hr
      · have hr := h b
        rw [Memory.read, if_neg (by omega), Memory.read_below hc.2.2.2 (by omega), Memory.read, if_pos rfl] at hr
        exact absurd hr.symm hd.2.2.1

/-- The store after reset is in canonical form. -/
theorem State.reset_mem_wf : State.reset.mem.wf = true := rfl

end Sys2Proof.Machine
end

