-- ==== Sys2Proof/Laws/PerInstr.lean ====
section
/-! SUPPORT. Statements for all instructions, made per instruction: the opcode of a row looks up that row. -/

namespace Sys2Proof.Laws

open Sys2Proof

/-- In every well-formed opcode map, the row's opcode value selects the row (spec/30_encoding.md rule R75). -/
def LookupCode.Statement (i : Instr) : Prop :=
  ∀ m : OpcodeMap, m.wf = true → m.lookup (m.code i) = some i

theorem LookupCode.ldaImm : LookupCode.Statement .ldaImm := fun _ h => OpcodeMap.lookup_code h _

theorem LookupCode.lda : LookupCode.Statement .lda := fun _ h => OpcodeMap.lookup_code h _

theorem LookupCode.sta : LookupCode.Statement .sta := fun _ h => OpcodeMap.lookup_code h _

theorem LookupCode.txa : LookupCode.Statement .txa := fun _ h => OpcodeMap.lookup_code h _

theorem LookupCode.tya : LookupCode.Statement .tya := fun _ h => OpcodeMap.lookup_code h _

theorem LookupCode.adc : LookupCode.Statement .adc := fun _ h => OpcodeMap.lookup_code h _

theorem LookupCode.ldxImm : LookupCode.Statement .ldxImm := fun _ h => OpcodeMap.lookup_code h _

theorem LookupCode.ldx : LookupCode.Statement .ldx := fun _ h => OpcodeMap.lookup_code h _

theorem LookupCode.tax : LookupCode.Statement .tax := fun _ h => OpcodeMap.lookup_code h _

theorem LookupCode.ldyImm : LookupCode.Statement .ldyImm := fun _ h => OpcodeMap.lookup_code h _

theorem LookupCode.ldy : LookupCode.Statement .ldy := fun _ h => OpcodeMap.lookup_code h _

theorem LookupCode.tay : LookupCode.Statement .tay := fun _ h => OpcodeMap.lookup_code h _

theorem LookupCode.nop : LookupCode.Statement .nop := fun _ h => OpcodeMap.lookup_code h _

theorem LookupCode.brk : LookupCode.Statement .brk := fun _ h => OpcodeMap.lookup_code h _

theorem LookupCode.cpx : LookupCode.Statement .cpx := fun _ h => OpcodeMap.lookup_code h _

theorem LookupCode.bne : LookupCode.Statement .bne := fun _ h => OpcodeMap.lookup_code h _

theorem LookupCode.inc : LookupCode.Statement .inc := fun _ h => OpcodeMap.lookup_code h _

theorem LookupCode.sys : LookupCode.Statement .sys := fun _ h => OpcodeMap.lookup_code h _

end Sys2Proof.Laws
end

