-- ==== Sys2Proof/Laws/Step.lean ====
section
/-! SUPPORT. What a pulse can do, said once. -/

namespace Sys2Proof.Machine

open Sys2Proof

/-- If a step answers a next state, the machine was running and the pulse was a fetch pulse, the
detection of an illegal opcode, or a pulse of the handler that `ir` selects. -/
theorem step_cases {s t : State} (h : step s = .next t) :
    s.halted = false ∧
      ((s.step = 0 ∧ t = s.tick.fetchPulse) ∨
       (s.step ≠ 0 ∧ s.opcodeMap.lookup s.ir = none ∧ t = s.tick.illegalOpcode.finishPulse) ∨
       (∃ i u, s.step ≠ 0 ∧ s.opcodeMap.lookup s.ir = some i ∧ exec i s.tick = .next u ∧
          t = u.finishPulse)) := by
  unfold step hostPulse at h
  split at h
  · cases h
  · refine ⟨by simp_all, ?_⟩
    unfold pulse at h
    split at h
    · rename_i hs
      cases h
      exact .inl ⟨by simpa using hs, rfl⟩
    · rename_i hs
      have hs' : s.step ≠ 0 := by simpa using hs
      unfold handlerPulse at h
      split at h
      · rename_i hl
        cases h
        exact .inr (.inl ⟨hs', by simpa using hl, rfl⟩)
      · rename_i i hl
        generalize he : exec i s.tick = o at h
        cases o with
        | next u =>
          cases h
          exact .inr (.inr ⟨i, u, hs', by simpa using hl, he, rfl⟩)
        | fault r => cases h
        | refused r => cases h

/-- A running machine past the fetch whose `ir` selects a row steps as that row's handler says. -/
theorem step_handler {s u : State} {i : Instr} (h : s.halted = false) (h0 : s.step ≠ 0)
    (hl : s.opcodeMap.lookup s.ir = some i) (he : exec i s.tick = .next u) :
    step s = .next u.finishPulse := by
  simp [step, hostPulse, h, pulse, h0, handlerPulse, hl, he, mapNext]

/-- The host's answer at the next pulse is the one `tick` makes current. -/
theorem State.irqAt_one (s : State) : s.irqAt 1 = s.tick.irqPending := by
  cases h : s.irqFuture <;> simp [State.irqAt, State.nextAnswer, h]

/-- Counting the host's answers from the next pulse on. -/
theorem State.irqAt_succ (s : State) (n : Nat) : s.irqAt (n + 2) = s.tick.irqAt (n + 1) := by
  have hc : s.cycle + (n + 2) = s.cycle + 1 + (n + 1) := by omega
  cases h : s.irqFuture <;> simp [State.irqAt, h, hc]

/-- Past the answers given, the host's answer is the free draw of the pulse's number. -/
theorem State.irqAt_free (s : State) (n : Nat) (h : s.irqFuture.length < n) :
    s.irqAt n = Config.irqDraw s.irqSource (s.cycle + n) := by
  simp only [State.irqAt, List.getD]
  rw [List.getElem?_eq_none (by omega)]
  rfl

/-- Runs of pulses compose. -/
theorem runPulses_add (m n : Nat) (s t : State) (h : runPulses m s = .next t) :
    runPulses (m + n) s = runPulses n t := by
  induction m generalizing s with
  | zero =>
    cases h
    rw [Nat.zero_add]
  | succ m ih =>
    rw [Nat.succ_add]
    simp only [runPulses] at h ⊢
    cases hs : step s with
    | next u =>
      rw [hs] at h
      exact ih u h
    | fault r => rw [hs] at h; cases h
    | refused r => rw [hs] at h; cases h

end Sys2Proof.Machine
end

