-- ==== Sys2Proof/Tests/Slice0.lean ====
section
/-! SUPPORT. The model's own tests: well-formedness, decoding, one pulse of each instruction with results
from spec/95_test_vectors.md, and a witness for the hypotheses of each statement. -/

namespace Sys2Proof.Tests

open Sys2Proof Sys2Proof.Machine

/-! ### Helpers -/

/-- A running state in step `n`, at address 0x0100, with cells 0x0040 = 3 and 0x0101 = 0xEF
and an empty interrupt input at the next pulse. -/
def at_ (n : Nat) : State :=
  { State.reset with
    step := n
    cycle := 10
    pc := 0x0100
    mem := [(0x40, 3), (0x101, 0xEF)]
    irqFuture := [false] }

/-- A launched state whose first instruction's cells stand at address 0. -/
def loaded (mem : Memory) : State := State.launch { Launch.default with mem := mem, irqFuture := [false] }

/-- The next state, if there is one. -/
def nextOf : Result → Option State
  | .next s => some s
  | .fault _ => none
  | .refused _ => none

/-! ### Well-formedness: each check refuses an ill-formed term -/

theorem test_code_wf : Code.wf ⟨.lda, [0x10, 0x00]⟩ = true := by decide
theorem test_code_ill_formed_missing_cell : Code.wf ⟨.lda, [0x10]⟩ = false := by decide
theorem test_code_ill_formed_extra_cell : Code.wf ⟨.nop, [0x10]⟩ = false := by decide
theorem test_map_ill_formed : OpcodeMap.wf { OpcodeMap.default with sys := 0xEA } = false := by decide
theorem test_memory_ill_formed_order : Memory.wf [(5, 1), (4, 1)] = false := by decide
theorem test_memory_ill_formed_unlisted : Memory.wf [(5, 0)] = false := by decide
theorem test_memory_ill_formed_address : Memory.wf [(65536, 1)] = false := by decide

/-! ### Decoding: cells written out from spec/30_encoding.md rules R71, R74, R78 -/

/-- LDA#, R78 example LDA #$05. -/
theorem test_decode_ldaImm : decode OpcodeMap.default [0xA9, 0x05] = .ok ⟨.ldaImm, [0x05]⟩ [] := by decide
/-- LDA, V12. -/
theorem test_decode_lda : decode OpcodeMap.default [0xAD, 0x34, 0x12] = .ok ⟨.lda, [0x34, 0x12]⟩ [] := by decide
/-- STA, R78 example STA $0010. -/
theorem test_decode_sta : decode OpcodeMap.default [0x8D, 0x10, 0x00] = .ok ⟨.sta, [0x10, 0x00]⟩ [] := by decide
/-- TXA, R78 example TXA. -/
theorem test_decode_txa : decode OpcodeMap.default [0x8A] = .ok ⟨.txa, []⟩ [] := by decide
/-- TYA, V16. -/
theorem test_decode_tya : decode OpcodeMap.default [0x98] = .ok ⟨.tya, []⟩ [] := by decide
/-- ADC, V30. -/
theorem test_decode_adc : decode OpcodeMap.default [0x6D, 0x20, 0x00] = .ok ⟨.adc, [0x20, 0x00]⟩ [] := by decide
/-- LDX#, V17. -/
theorem test_decode_ldxImm : decode OpcodeMap.default [0xA2, 0x01] = .ok ⟨.ldxImm, [0x01]⟩ [] := by decide
/-- LDX, V18. -/
theorem test_decode_ldx : decode OpcodeMap.default [0xAE, 0x40, 0x00] = .ok ⟨.ldx, [0x40, 0x00]⟩ [] := by decide
/-- TAX, V19. -/
theorem test_decode_tax : decode OpcodeMap.default [0xAA] = .ok ⟨.tax, []⟩ [] := by decide
/-- LDY#, V20. -/
theorem test_decode_ldyImm : decode OpcodeMap.default [0xA0, 0x41] = .ok ⟨.ldyImm, [0x41]⟩ [] := by decide
/-- LDY, V21. -/
theorem test_decode_ldy : decode OpcodeMap.default [0xAC, 0x40, 0x00] = .ok ⟨.ldy, [0x40, 0x00]⟩ [] := by decide
/-- TAY, V22. -/
theorem test_decode_tay : decode OpcodeMap.default [0xA8] = .ok ⟨.tay, []⟩ [] := by decide
/-- NOP, V50. -/
theorem test_decode_nop : decode OpcodeMap.default [0xEA] = .ok ⟨.nop, []⟩ [] := by decide
/-- BRK, R78 example BRK. -/
theorem test_decode_brk : decode OpcodeMap.default [0x00] = .ok ⟨.brk, []⟩ [] := by decide
/-- CPX, V36. -/
theorem test_decode_cpx : decode OpcodeMap.default [0xEC, 0x41, 0x00] = .ok ⟨.cpx, [0x41, 0x00]⟩ [] := by decide
/-- BNE, R78 example BNE $EF. -/
theorem test_decode_bne : decode OpcodeMap.default [0xD0, 0xEF] = .ok ⟨.bne, [0xEF]⟩ [] := by decide
/-- INC, V41. -/
theorem test_decode_inc : decode OpcodeMap.default [0xEE, 0x40, 0x00] = .ok ⟨.inc, [0x40, 0x00]⟩ [] := by decide
/-- SYS, V61. -/
theorem test_decode_sys : decode OpcodeMap.default [0xFF] = .ok ⟨.sys, []⟩ [] := by decide

/-- R76, W10: 0x02 is no opcode of the default map. -/
theorem test_decode_illegal : decode OpcodeMap.default [0x02, 0x01] = .illegalOpcode 0x02 := by decide
theorem test_decode_truncated : decode OpcodeMap.default [0x8D, 0x10] = .truncated .sta := by decide
/-- R74: the table's words, numbered as the table numbers them. -/
theorem test_decodeTableWord :
    [0xA9, 0xAD, 0x8D, 0x8A, 0x98, 0x6D, 0xA2, 0xAE, 0xAA, 0xA0, 0xAC, 0xA8, 0xEA, 0x00, 0xEC, 0xD0, 0xEE, 0xFF].map
      (decodeTableWord 8) = Instr.all.map some := by decide
/-- Each table word, placed and fetched, is run by the very next step: its second pulse. -/
theorem test_withFetchWord :
    [0xA9, 0xAD, 0x8D, 0x8A, 0x98, 0x6D, 0xA2, 0xAE, 0xAA, 0xA0, 0xAC, 0xA8, 0xEA, 0x00, 0xEC, 0xD0, 0xEE, 0xFF].all
      (fun w => ((nextOf (step (State.reset.withFetchWord 8 w))).map (fun t => (t.step, t.ir)) == some (2, w))) = true := by
  decide

/-! ### One pulse of each instruction (spec/95_test_vectors.md) -/

/-- V11: LDA #$FF. -/
theorem test_ldaImm : (nextOf (exec .ldaImm { at_ 3 with decodedByte1 := some 0xFF, sReg := .Z })).map
    (fun t => (t.acc, t.sReg)) = some (0xFF, .Z) := by decide
/-- V12: LDA with mem[0x1234] = 0x2A. -/
theorem test_lda : (nextOf (exec .lda { at_ 4 with sp := 0x1234, mem := [(0x1234, 0x2A)] })).map
    (fun t => t.acc) = some 0x2A := by decide
/-- V14: STA of 0x1FF is not truncated. -/
theorem test_sta : (nextOf (exec .sta { at_ 4 with sp := 0x0010, acc := 0x1FF })).map
    (fun t => t.memRead 0x0010) = some 0x1FF := by decide
/-- V15: TXA with xReg = 0x100. -/
theorem test_txa : (nextOf (exec .txa { at_ 2 with xReg := 0x100 })).map
    (fun t => (t.decodedByte1, t.pc)) = some (some 0x100, 0x0100) := by decide
/-- V16: TYA. -/
theorem test_tya : (nextOf (exec .tya { at_ 3 with yReg := 0x41, decodedByte1 := some 0x41 })).map
    (fun t => t.acc) = some 0x41 := by decide
/-- V31: no overflow at exactly 0xFFFF. -/
theorem test_adc_limit : (nextOf (exec .adc { at_ 4 with sp := 0x20, acc := 0xFFFE, mem := [(0x20, 1)], sReg := .Z })).map
    (fun t => (t.acc, t.sReg, t.reports)) = some (0xFFFF, .Z, []) := by decide
/-- W7, V35: 0x00FF + 0xFF02. -/
theorem test_adc_overflow : (nextOf (exec .adc { at_ 4 with sp := 0x20, acc := 0x00FF, mem := [(0x20, 0xFF02)] })).map
    (fun t => (t.acc, t.sReg, t.reports)) = some (0x10001, .V, [.overflowWarning 0x10001]) := by decide
/-- V17: LDX #$01. -/
theorem test_ldxImm : (nextOf (exec .ldxImm { at_ 3 with decodedByte1 := some 1 })).map
    (fun t => t.xReg) = some 1 := by decide
/-- V18: LDX $0040. -/
theorem test_ldx : (nextOf (exec .ldx { at_ 4 with sp := 0x0040 })).map (fun t => t.xReg) = some 3 := by decide
/-- V19: TAX of 0x10001. -/
theorem test_tax : (nextOf (exec .tax { at_ 3 with acc := 0x10001, decodedByte1 := some 0x10001 })).map
    (fun t => t.xReg) = some 0x10001 := by decide
/-- V20: LDY #$41. -/
theorem test_ldyImm : (nextOf (exec .ldyImm { at_ 3 with decodedByte1 := some 0x41 })).map
    (fun t => t.yReg) = some 0x41 := by decide
/-- V21, with 3 in the cell. -/
theorem test_ldy : (nextOf (exec .ldy { at_ 4 with sp := 0x0040 })).map (fun t => t.yReg) = some 3 := by decide
/-- V22: TAY. -/
theorem test_tay : (nextOf (exec .tay { at_ 2 with acc := 9 })).map (fun t => t.decodedByte1) = some (some 9) := by decide
/-- V50: NOP's interrupt check displaces Z. -/
theorem test_nop : (nextOf (exec .nop { at_ 3 with sReg := .Z, irqPending := true })).map
    (fun t => (t.sReg, t.opComplete)) = some (.I, true) := by decide
/-- V51, V52: BRK at 0x0100, the interrupt input non-empty; the pulse halts and requests shutdown. -/
theorem test_brk : (nextOf (step { at_ 2 with irqFuture := [true] })).map
    (fun t => (t.sReg, t.step, t.halted, t.shutdown, t.pc)) =
      some (.B, 0, true, [.requestShutdown], 0x0100) := by decide
/-- V36: CPX finds 3 = 3. -/
theorem test_cpx_equal : (nextOf (exec .cpx { at_ 4 with sp := 0x40, xReg := 3 })).map
    (fun t => t.sReg) = some .Z := by decide
/-- V37: on inequality Z stays. -/
theorem test_cpx_unequal : (nextOf (exec .cpx { at_ 4 with sp := 0x40, xReg := 2, sReg := .Z })).map
    (fun t => t.sReg) = some .Z := by decide
/-- V53, V58: BNE with k = 0xEF at P = 0x0015 and, wrapping, at P = 0x0005. -/
theorem test_bne_taken :
    (nextOf (exec .bne { at_ 3 with pc := 0x0015, decodedByte1 := some 0xEF })).map (fun t => t.pc) = some 0x0004 ∧
    (nextOf (exec .bne { at_ 3 with pc := 0x0005, decodedByte1 := some 0xEF })).map (fun t => t.pc) = some 0xFFF4 := by
  decide
/-- V54, V57: BNE not taken with Z; k = 0 moves back 256. -/
theorem test_bne_corners :
    (nextOf (exec .bne { at_ 3 with pc := 0x0015, sReg := .Z, decodedByte1 := some 0xEF })).map (fun t => t.pc) =
      some 0x0015 ∧
    (nextOf (exec .bne { at_ 3 with pc := 0x0101, decodedByte1 := some 0 })).map (fun t => t.pc) = some 0x0001 := by
  decide
/-- V42: INC of 0xFF gives 0x100 and no flag. -/
theorem test_inc_successor : (nextOf (exec .inc { at_ 5 with acc := 0xFF })).map
    (fun t => (t.acc, t.sReg)) = some (0x100, .none) := by decide
/-- V41: INC writes back. -/
theorem test_inc_write : (nextOf (exec .inc { at_ 6 with acc := 1, sp := 0x40 })).map
    (fun t => (t.memRead 0x40, t.memRead 0x101)) = some (1, 0xEF) := by decide
/-- W8, W9, V61: SYS in modes 1 and 2 with yReg = 65. -/
theorem test_sys_output :
    (nextOf (exec .sys { at_ 3 with xReg := 1, yReg := 65, decodedByte1 := some 65 })).map
      (fun t => t.console.map ConsoleEvent.text) = some [some ['6', '5']] ∧
    (nextOf (exec .sys { at_ 3 with xReg := 2, yReg := 65, decodedByte1 := some 65 })).map
      (fun t => t.console.map ConsoleEvent.text) = some [some ['A']] := by decide
/-- V62, V63: modes 3 and 0 report and print nothing. -/
theorem test_sys_unsupported :
    (nextOf (exec .sys { at_ 3 with xReg := 3, decodedByte1 := some 0 })).map
      (fun t => (t.console, t.reports)) = some ([], [.unsupportedSys 3]) ∧
    (nextOf (exec .sys { at_ 3 with xReg := 0, decodedByte1 := some 0 })).map
      (fun t => (t.console, t.reports)) = some ([], [.unsupportedSys 0]) := by decide

/-! ### The pulse -/

/-- W1: the first fetch of the run does not move `pc`. -/
theorem test_first_fetch : (nextOf (step { loaded [(0x200, 0xEA)] with pc := 0x0200 })).map
    (fun t => (t.pc, t.ir, t.cycle, t.step)) = some (0x0200, 0xEA, 1, 1) := by decide
/-- V1: a later fetch at 0xFFFF, and the decode that wraps to 0x0000. -/
theorem test_pc_wraps :
    (nextOf (step { loaded [(0xFFFF, 0xA9)] with pc := 0xFFFE, cycle := 3 })).map (fun t => (t.pc, t.ir)) =
      some (0xFFFF, 0xA9) ∧
    (nextOf (exec .ldaImm { loaded [(0, 0x77)] with pc := 0xFFFF, cycle := 5, step := 2 })).map
      (fun t => (t.pc, t.decodedByte1)) = some (0x0000, some 0x77) := by decide
/-- W3: the two calls of the address decode compose 0x1234 from the cells 34 12. -/
theorem test_address_decode :
    (nextOf (exec .lda { loaded [(1, 0x34)] with step := 2 })).map (fun t => (t.decodedByte1, t.decodedByte2)) =
      some (some 0x34, none) ∧
    (nextOf (exec .lda { loaded [(2, 0x12)] with step := 3, pc := 1, decodedByte1 := some 0x34 })).map
      (fun t => (t.decodedByte2, t.sp, t.pc)) = some (some 0x12, 0x1234, 2) := by decide
/-- V2: a low byte of 0 is latched, not mistaken for unset. -/
theorem test_zero_operand : (nextOf (exec .lda { loaded [] with step := 3, pc := 1, decodedByte1 := some 0 })).map
    (fun t => (t.decodedByte1, t.decodedByte2, t.sp)) = some (some 0, some 0, 0) := by decide
/-- V3: the trace entry of LDA#'s last pulse, and the reset after it. -/
theorem test_completion : (nextOf (step { loaded [] with step := 3, ir := 0xA9, cycle := 3, decodedByte1 := some 5 })).map
    (fun t => (t.trace.map (fun e => (e.step, e.decodedByte1)), t.step, t.decodedByte1, t.opComplete)) =
      some ([(4, some 5)], 0, none, false) := by decide
/-- V70: the pulse that detects an illegal opcode. -/
theorem test_illegal : (nextOf (step { at_ 1 with ir := 0x02 })).map (fun t => (t.sReg, t.step, t.halted, t.pc)) =
    some (.B, 2, true, 0x0100) := by decide
/-- V70: its report and its shutdown request. -/
theorem test_illegal_outputs : (nextOf (step { at_ 1 with ir := 0x02 })).map (fun t => (t.reports, t.shutdown)) =
    some ([.illegalOpcode 0x02], [.requestShutdown]) := by decide
/-- V5, V6: the unreachable conditions only report. -/
theorem test_unreachable_conditions :
    (nextOf (exec .nop { at_ 4 with ir := 0xEA })).map (fun t => t.reports) = some [.stepRangeError 0xEA 4] ∧
    ((at_ 2).decodeReg none).reports = [.missingDecodeInput] := by decide
/-- V72: no pulse after the shutdown request. -/
theorem test_halted : step { at_ 0 with halted := true } = .refused .pulseAfterShutdown := rfl
/-- R105: in diagnostic mode the whole trace is handed over at halt. -/
theorem test_diag_dump : (nextOf (step { at_ 1 with ir := 0x02, diag := true })).map
    (fun t => t.traceDumps == [t.trace]) = some true := by decide
/-- R38: the host's given answers, one a pulse. -/
theorem test_irq_answers : ((nextOf (step { at_ 0 with irqFuture := [true, false] })).map
    (fun t => (t.irqPending, t.irqFuture))) = some (true, [false]) := by decide

/-- R38, D13: with no answer given, the next one is the free draw of the pulse's number, not the one
before. -/
theorem test_irq_draw (b : Bool) :
    (nextOf (step { at_ 0 with irqPending := b, irqFuture := [] })).map (fun t => t.irqPending) =
      some (Config.irqDraw 0 11) := rfl

/-! ### Witnesses: the hypotheses of each statement hold together somewhere -/

theorem witness_DecodeOfEncodeUnderEveryMap :
    OpcodeMap.default.wf = true ∧ Code.wf ⟨.sta, [0x10, 0x1FF]⟩ = true := by decide
theorem witness_EncodeOfDecodeGivesTheCells :
    decode OpcodeMap.default [0xD0, 0xEF, 0x00] = .ok ⟨.bne, [0xEF]⟩ [0x00] := by decide
theorem witness_StepRunsTheDecodedInstruction_handler :
    (at_ 1).halted = false ∧ (at_ 1).step ≠ 0 ∧ (at_ 1).opcodeMap.lookup (at_ 1).ir = some .brk := by decide
theorem witness_StepRunsTheDecodedInstruction_cells :
    let s := loaded [(0, 0x8D), (1, 0x10)]
    s.halted = false ∧ s.step = 0 ∧
      decode s.opcodeMap [s.memRead s.entryAddr, s.memRead (nextAddr s.entryAddr),
        s.memRead (nextAddr (nextAddr s.entryAddr))] = .ok ⟨.sta, [0x10, 0x00]⟩ [] := by decide
theorem witness_FetchPulseReadsTheOpcode :
    (State.reset.halted = false ∧ State.reset.step = 0 ∧ State.reset.cycle = 0) ∧
    ((at_ 0).halted = false ∧ (at_ 0).step = 0 ∧ (at_ 0).cycle ≠ 0) := by decide
theorem witness_PulseIsEnabledExactlyWhenRunning :
    (at_ 0).halted = false ∧ { at_ 0 with halted := true }.halted = true := by decide
theorem witness_IllegalOpcodePulseHalts :
    let s := { at_ 1 with ir := 0x100 }
    s.halted = false ∧ s.step ≠ 0 ∧ s.opcodeMap.lookup s.ir = none ∧ s.opComplete = false := by decide
theorem witness_IllegalInstructionTakesTwoPulses :
    (loaded [(0, 0x02)]).atFetch ∧ (loaded [(0, 0x02)]).nextRow = none := by decide
theorem witness_EveryPulseAppendsOneTraceEntry_fetch : ∃ t, step (at_ 0) = .next t ∧ (at_ 0).step = 0 :=
  ⟨_, rfl, rfl⟩
theorem witness_EveryPulseAppendsOneTraceEntry_illegal :
    ∃ t, step { at_ 1 with ir := 0x02 } = .next t ∧ (at_ 1).opcodeMap.lookup 0x02 = none :=
  ⟨_, rfl, by decide⟩
theorem witness_EveryPulseAppendsOneTraceEntry_handler :
    ∃ t u, step (at_ 1) = .next t ∧ (at_ 1).opcodeMap.lookup (at_ 1).ir = some .brk ∧
      exec .brk (at_ 1).tick = .next u :=
  ⟨_, _, rfl, by decide, rfl⟩
theorem witness_CompletionResetStartsAFreshFetch :
    ∃ u, exec .nop { at_ 2 with ir := 0xEA }.tick = .next u ∧ u.opComplete = true ∧
      (at_ 2).halted = false ∧ (at_ 2).opcodeMap.lookup 0xEA = some .nop :=
  ⟨_, rfl, rfl, rfl, by decide⟩
theorem witness_HaltCheckSendsTheShutdownRequest_fetch : ∃ t, step (at_ 0) = .next t ∧ (at_ 0).step = 0 :=
  ⟨_, rfl, rfl⟩
theorem witness_HaltCheckSendsTheShutdownRequest_halt :
    ∃ t, step (at_ 2) = .next t ∧ t.sReg = .B ∧ (at_ 2).sReg ≠ .B ∧ (at_ 2).step ≠ 0 :=
  ⟨_, rfl, rfl, by decide, by decide⟩
theorem witness_HaltCheckSendsTheShutdownRequest_runOn :
    ∃ t, step (at_ 1) = .next t ∧ t.sReg ≠ .B ∧ (at_ 1).step ≠ 0 :=
  ⟨_, rfl, by decide, by decide⟩
theorem witness_StepRangeErrorOnlyReports :
    (at_ 1).step < 2 ∧ stepCount .sys < (at_ 5).step ∧ stepCount .inc < (at_ 8).step := by decide
theorem witness_RegisterCopyPulses : (at_ 2).step = 2 := rfl
theorem witness_ImmediateDecodePulse : Instr.bne.format = .imm ∧ (at_ 2).step = 2 := by decide
theorem witness_AddressDecodePulses :
    Instr.inc.format = .abs ∧ (at_ 2).step = 2 ∧ (at_ 2).decodedByte1 = none ∧
      { at_ 3 with decodedByte1 := some 0 }.step = 3 ∧
      { at_ 3 with decodedByte1 := some 0 }.decodedByte1 = some 0 := by decide
theorem witness_LastPulseIsTheInterruptCheck :
    Instr.inc ≠ .brk ∧ (at_ 7).step = stepCount .inc ∧ Instr.nop ≠ .brk ∧ (at_ 3).step = stepCount .nop := by decide
theorem witness_LoadImmediateActions :
    { at_ 3 with decodedByte1 := some 0 }.step = 3 ∧ { at_ 3 with decodedByte1 := some 0 }.decodedByte1 = some 0 := by
  decide
theorem witness_LoadMemoryActions : (at_ 4).step = 4 := rfl
theorem witness_StoreActionWritesTheAddressedCell : (at_ 4).mem.wf = true ∧ (at_ 4).step = 4 := by decide
theorem witness_TransferActions :
    { at_ 3 with decodedByte1 := some 0x10001 }.step = 3 ∧
      { at_ 3 with decodedByte1 := some 0x10001 }.decodedByte1 = some 0x10001 := by decide
theorem witness_AddActionSetsOverflowAboveTheLimit :
    let s := { at_ 4 with sp := 0x40, acc := 0xFFFC }
    let t := { at_ 4 with sp := 0x40, acc := 0xFFFD }
    (s.step = 4 ∧ s.acc + s.memRead s.sp = 0xFFFF) ∧ (t.step = 4 ∧ t.acc + t.memRead t.sp = 0x10000) := by decide
theorem witness_CompareActionSetsZeroOnEquality :
    let s := { at_ 4 with sp := 0x40, xReg := 3 }
    let t := { at_ 4 with sp := 0x40, xReg := 0x103 }
    (s.step = 4 ∧ s.xReg = s.memRead s.sp) ∧ (t.step = 4 ∧ t.xReg ≠ t.memRead t.sp) := by decide
theorem witness_IncrementActions :
    (at_ 4).step = 4 ∧ (at_ 5).step = 5 ∧ (at_ 6).mem.wf = true ∧ (at_ 6).step = 6 := by decide
theorem witness_NopOnlyChecksForInterrupts : (at_ 2).step = 2 ∧ (at_ 3).step = 3 := by decide
theorem witness_BreakHaltsOnItsThirdPulse :
    (at_ 3).step = 3 ∧ (at_ 2).halted = false ∧ (at_ 2).step = 2 ∧
      (at_ 2).opcodeMap.lookup (at_ 2).ir = some .brk := by decide
theorem witness_BranchActionMovesBackUnlessZero :
    let s := { at_ 3 with decodedByte1 := some 0, sReg := .Z }
    let t := { at_ 3 with decodedByte1 := some 300, sReg := .I }
    (s.step = 3 ∧ s.decodedByte1 = some 0 ∧ s.sReg = .Z) ∧
      (t.step = 3 ∧ t.decodedByte1 = some 300 ∧ t.sReg ≠ .Z) := by decide
theorem witness_SystemCallActions :
    let s := { at_ 3 with decodedByte1 := some 65 }
    (s.step = 3 ∧ s.decodedByte1 = some 65) ∧ { s with xReg := 1 }.xReg = 1 ∧ { s with xReg := 2 }.xReg = 2 ∧
      { s with xReg := 3 }.xReg ≠ 1 ∧ { s with xReg := 3 }.xReg ≠ 2 ∧ s.xReg ≠ 1 ∧ s.xReg ≠ 2 := by decide
theorem witness_BranchTargetsWrap : (256 : Nat) ≤ 256 ∧ 256 < (257 : Nat) := by decide
theorem witness_RegistersAreWrittenOnlyByTheirInstructions :
    ∃ t, exec .txa { at_ 3 with decodedByte1 := some 5 } = .next t ∧ t.acc ≠ (at_ 3).acc :=
  ⟨_, rfl, by decide⟩
theorem witness_OnlyStoringPulsesChangeTheStore :
    ∃ t, exec .sta (at_ 5) = .next t ∧ ¬(Instr.sta = .sta ∧ (at_ 5).step = 4) ∧
      ¬(Instr.sta = .inc ∧ (at_ 5).step = 6) :=
  ⟨_, rfl, by decide, by decide⟩
theorem witness_PulseFrame :
    ∃ t, step { at_ 2 with ir := 0xAD, decodedByte1 := some 0x34 } = .next t ∧ t.sp ≠ (at_ 2).sp ∧ (at_ 2).step ≠ 0 :=
  ⟨_, rfl, by decide, by decide⟩
theorem witness_PulseFrame_free_draw : ∃ t, step State.reset = .next t ∧ State.reset.irqFuture = [] := ⟨_, rfl, rfl⟩
theorem witness_FlagIsWrittenOnlyByItsSources :
    (∃ t, step { at_ 3 with ir := 0xEC, sp := 0x40, xReg := 3 } = .next t ∧ t.sReg = .Z) ∧
    (∃ t, step { at_ 3 with ir := 0x6D, sp := 0x40, acc := 0xFFFF } = .next t ∧ t.sReg = .V) ∧
    (∃ t, step { at_ 2 with ir := 0xEA, irqFuture := [true] } = .next t ∧ t.sReg = .I) ∧
    (∃ t, step (at_ 2) = .next t ∧ t.sReg = .B) :=
  ⟨⟨_, rfl, by decide⟩, ⟨_, rfl, by decide⟩, ⟨_, rfl, by decide⟩, ⟨_, rfl, by decide⟩⟩
theorem witness_NoPulseClearsTheFlagRegister :
    ∃ t, step { at_ 1 with sReg := .Z } = .next t ∧ { at_ 1 with sReg := .Z }.sReg ≠ .none :=
  ⟨_, rfl, by decide⟩
theorem witness_HandlersReportOnlyTheirConditions :
    ∃ t, 2 ≤ (at_ 3).step ∧ (at_ 3).step ≤ stepCount .sys ∧
      exec .sys { at_ 3 with xReg := 3, decodedByte1 := some 0 } = .next t ∧ t.reports = [.unsupportedSys 3] :=
  ⟨_, by decide, by decide, rfl, by decide⟩
theorem witness_ConsoleEventsComeOnlyFromSys :
    ∃ t, step { at_ 2 with ir := 0xFF, xReg := 1, yReg := 65, decodedByte1 := some 65 } = .next t ∧
      t.console = [.dec 65] :=
  ⟨_, rfl, by decide⟩
theorem witness_ConsoleEventsComeOnlyFromSys_whole :
    (loaded [(0, 0xFF)]).atFetch ∧ (loaded [(0, 0xFF)]).nextRow = some .sys ∧
      (loaded [(0, 0xEA)]).atFetch ∧ (loaded [(0, 0xEA)]).nextRow = some .nop := by decide
theorem witness_OutputsAreAppendOnly : ∃ t, step (at_ 2) = .next t := ⟨_, rfl⟩
theorem witness_OutputsAreNeverRead :
    (at_ 1).withoutOutputs = { at_ 1 with console := [.dec 1] }.withoutOutputs ∧
      (∃ t, step (at_ 1) = .next t) ∧
      (∃ r, step { at_ 1 with halted := true } = .refused r) :=
  ⟨by decide, ⟨_, rfl⟩, ⟨_, rfl⟩⟩
theorem witness_InterruptInputOnlySetsTheFlag :
    ∃ t u, exec .nop { at_ 3 with irqPending := false } = .next t ∧
      exec .nop { at_ 3 with irqPending := true } = .next u ∧ t.sReg ≠ u.sReg :=
  ⟨_, _, rfl, rfl, by decide⟩
theorem witness_OnlyTheBranchReadsTheFlag :
    ∃ t u, exec .bne { at_ 3 with decodedByte1 := some 1 } = .next t ∧
      exec .bne { at_ 3 with decodedByte1 := some 1, sReg := .Z } = .next u ∧ t.pc ≠ u.pc :=
  ⟨_, _, rfl, rfl, by decide⟩
theorem witness_EveryPulseKeepsTheStoreCanonical :
    ∃ t, (at_ 3).mem.wf = true ∧ step { at_ 3 with ir := 0x8D, sp := 0x10, acc := 7 } = .next t ∧ t.mem ≠ (at_ 3).mem :=
  ⟨_, by decide, rfl, by decide⟩
theorem witness_EveryPulseKeepsThePipelineInvariants :
    ∃ t, State.pipelineOk { at_ 2 with ir := 0x8D, decodedByte1 := some 0x10 } ∧
      step { at_ 2 with ir := 0x8D, decodedByte1 := some 0x10 } = .next t :=
  ⟨_, .inr ⟨by decide, by decide, Nat.le.step (Nat.le.step .refl), rfl⟩, rfl⟩
theorem witness_EveryPulseKeepsTheOperandLatch :
    ∃ t, State.pipelineOk { at_ 2 with ir := 0x8D, decodedByte1 := some 0x10 } ∧
      State.latchOk { at_ 2 with ir := 0x8D, decodedByte1 := some 0x10 } ∧
      step { at_ 2 with ir := 0x8D, decodedByte1 := some 0x10 } = .next t :=
  ⟨_, .inr ⟨by decide, by decide, Nat.le.step (Nat.le.step .refl), rfl⟩, .inr ⟨trivial, by decide, by decide⟩, rfl⟩
theorem witness_EveryPulseKeepsTheTraceLaw : ∃ t, State.reset.traceOk ∧ step State.reset = .next t :=
  ⟨_, by decide, rfl⟩
theorem witness_EveryPulseKeepsTheHaltLaw : ∃ t, (at_ 2).haltOk ∧ step (at_ 2) = .next t ∧ t.halted = true :=
  ⟨_, by decide, rfl, by decide⟩
theorem witness_OnlyBreakAndIllegalOpcodesHalt :
    ∃ t, (at_ 2).haltOk ∧ step (at_ 2) = .next t ∧ t.halted = true :=
  ⟨_, by decide, rfl, by decide⟩
theorem witness_LaunchMeetsTheInvariants :
    { Launch.default with mem := [(0, 0xA9), (0xFFFF, 0x10001)] }.mem.wf = true := by decide
theorem witness_EveryInstructionTakesItsStepCount :
    (loaded [(0, 0xEE)]).atFetch ∧ (loaded [(0, 0xEE)]).nextRow = some .inc := by decide
theorem witness_EveryInstructionLeavesThePcAtItsLastCell :
    (at_ 0).atFetch ∧ { at_ 0 with mem := [(0x101, 0xAD)] }.nextRow = some .lda ∧ Instr.lda ≠ .bne := by decide
theorem witness_WholeBranch :
    { loaded [(0, 0xD0)] with sReg := .Z }.atFetch ∧ { loaded [(0, 0xD0)] with sReg := .Z }.nextRow = some .bne ∧
      (loaded [(0, 0xD0)]).atFetch ∧ (loaded [(0, 0xD0)]).nextRow = some .bne := by decide
theorem witness_WholeAddition :
    let s := { loaded [(0, 0x6D), (1, 0x40), (0x40, 0xFF02)] with acc := 0x00FF }
    s.atFetch ∧ s.nextRow = some .adc ∧
      (0x0040 : Addr) = compose (s.memRead (nextAddr s.entryAddr)) (s.memRead (nextAddr (nextAddr s.entryAddr))) ∧
      0x10001 = s.acc + s.memRead 0x0040 := by decide
theorem witness_WholeIncrement :
    let s := loaded [(0, 0xEE), (1, 0x40), (0x40, 0xFF)]
    s.atFetch ∧ s.mem.wf = true ∧ s.nextRow = some .inc ∧
      (0x0040 : Addr) = compose (s.memRead (nextAddr s.entryAddr)) (s.memRead (nextAddr (nextAddr s.entryAddr))) := by
  decide
theorem witness_StoreIsSeenByTheNextFetch :
    let s := loaded [(0, 0x8D), (1, 0x03), (4, 0x01)]
    s.atFetch ∧ s.mem.wf = true ∧ s.nextRow = some .sta ∧
      (0x0003 : Addr) = compose (s.memRead (nextAddr s.entryAddr)) (s.memRead (nextAddr (nextAddr s.entryAddr))) ∧
      (0x0003 : Addr) = nextAddr (nextAddr (nextAddr s.entryAddr)) := by decide
theorem witness_PendingInterruptMakesTheBranchTaken :
    let s := { loaded [(0, 0xEC), (1, 0x40), (3, 0xD0), (4, 0xEF)] with irqFuture := [false, false, false, false, true] }
    s.atFetch ∧ s.nextRow = some .cpx ∧ s.irqAt 5 = true ∧
      (0x0004 : Addr) = nextAddr (nextAddr (nextAddr (nextAddr s.entryAddr))) ∧
      s.opcodeMap.lookup (s.memRead (nextAddr (nextAddr (nextAddr s.entryAddr)))) = some .bne := by decide

end Sys2Proof.Tests
end

section
/-! PROOF. The statements of spec/40_pipeline.md about the trace entry of a pulse, the completion reset
and the register-copy decode. -/

namespace Sys2Proof.Machine

open Sys2Proof

/-! ### What a handler leaves to the rest of the pulse -/

/-- No handler counts the step or appends to the Trace Log: the pulse around it does (rule R90). -/
theorem HandlerPulse.step_trace_unchanged {i : Instr} {s t : State} (h : HandlerPulse i s t) :
    t.step = s.step ∧ t.trace = s.trace := by
  cases h with
  | add => simp [State.overflowFlag_eq]
  | compare => simp [State.compareFlag_eq]
  | sysCall => simp [State.sysCall_eq]
  | branch => split <;> exact ⟨rfl, rfl⟩
  | decodeAbs => simp [State.decodeAbs_eq]
  | _ => exact ⟨rfl, rfl⟩

theorem exec_step {i : Instr} {s t : State} (h : exec i s = .next t) : t.step = s.step :=
  (exec_cases h).step_trace_unchanged.1

theorem exec_trace {i : Instr} {s t : State} (h : exec i s = .next t) : t.trace = s.trace :=
  (exec_cases h).step_trace_unchanged.2

/-! ### The end of a pulse -/

@[simp] theorem State.finishPulse_trace (s : State) : s.finishPulse.trace = s.trace ++ [s.snapshot] := by
  rw [State.finishPulse_eq]
@[simp] theorem State.finishPulse_pc (s : State) : s.finishPulse.pc = s.pc := by rw [State.finishPulse_eq]
@[simp] theorem State.finishPulse_sp (s : State) : s.finishPulse.sp = s.sp := by rw [State.finishPulse_eq]
@[simp] theorem State.finishPulse_ir (s : State) : s.finishPulse.ir = s.ir := by rw [State.finishPulse_eq]
@[simp] theorem State.finishPulse_acc (s : State) : s.finishPulse.acc = s.acc := by rw [State.finishPulse_eq]
@[simp] theorem State.finishPulse_xReg (s : State) : s.finishPulse.xReg = s.xReg := by
  rw [State.finishPulse_eq]
@[simp] theorem State.finishPulse_yReg (s : State) : s.finishPulse.yReg = s.yReg := by
  rw [State.finishPulse_eq]
@[simp] theorem State.finishPulse_sReg (s : State) : s.finishPulse.sReg = s.sReg := by
  rw [State.finishPulse_eq]

/-- The pipeline state after the end of a pulse that completed its instruction. -/
theorem State.finishPulse_completed {s : State} (h : s.opComplete = true) :
    s.finishPulse.step = 0 ∧ s.finishPulse.decodedByte1 = none ∧ s.finishPulse.decodedByte2 = none ∧
      s.finishPulse.opComplete = false := by
  simp [State.finishPulse_eq, h]

/-! ### The two kinds of pulse that run no handler, beside `step_handler` -/

/-- A running machine at step 0 performs a fetch pulse. -/
theorem step_fetch {s : State} (h : s.halted = false) (h0 : s.step = 0) :
    step s = .next s.tick.fetchPulse := by
  simp [step, hostPulse, h, pulse, h0]

/-- A running machine past the fetch whose `ir` selects no row takes the illegal-opcode path. -/
theorem step_illegal {s : State} (h : s.halted = false) (h0 : s.step ≠ 0)
    (hl : s.opcodeMap.lookup s.ir = none) : step s = .next s.tick.illegalOpcode.finishPulse := by
  simp [step, hostPulse, h, pulse, h0, handlerPulse, hl]

/-- A fetch pulse reads at the entry address of the state before it. -/
@[simp] theorem State.tick_fetchAddr (s : State) : s.tick.fetchAddr = s.entryAddr := by
  simp [State.fetchAddr, State.entryAddr]

/-- Appending to the Trace Log changes no field that an entry shows. -/
theorem State.fetchPulse_trace (s : State) : s.fetchPulse.trace = s.trace ++ [s.fetchPulse.snapshot] := rfl

/-- A fetch pulse leaves the machine at step 1 with the opcode cell read. -/
theorem State.tick_fetchPulse_of_step_zero {s : State} (h0 : s.step = 0) :
    s.tick.fetchPulse.step = 1 ∧ s.tick.fetchPulse.pc = s.entryAddr ∧
      s.tick.fetchPulse.ir = s.memRead s.entryAddr := by
  simp [State.fetchPulse_eq, h0, State.memRead_congr s.tick_mem]

/-! ### The statements -/

/-- Settles O11: for each of the three kinds of pulse, the state that the pulse's append sees; a handler
leaves trace and step alone. -/
theorem everyPulseAppendsOneTraceEntry : Obligations.EveryPulseAppendsOneTraceEntry := by
  refine ⟨fun _ => rfl, fun s t hst => ?_⟩
  have hrun : s.halted = false := (step_cases hst).1
  refine ⟨fun h0 => ?fetch, fun h0 hl => ?illegal, fun i u h0 hl hu => ?handler⟩
  case fetch =>
    obtain rfl : s.tick.fetchPulse = t := by simpa [step_fetch hrun h0] using hst
    exact s.tick.fetchPulse_trace
  case illegal =>
    obtain rfl : s.tick.illegalOpcode.finishPulse = t := by simpa [step_illegal hrun h0 hl] using hst
    exact s.tick.illegalOpcode.finishPulse_trace
  case handler =>
    obtain rfl : u.finishPulse = t := by simpa [step_handler hrun h0 hl hu] using hst
    exact ⟨by rw [State.finishPulse_trace, exec_trace hu, State.tick_trace],
      by rw [exec_step hu, State.tick_step]⟩

/-- Settles O12: the reset of a completed pulse makes `step` 0, which selects the fetch pulse. -/
theorem completionResetStartsAFreshFetch : Obligations.CompletionResetStartsAFreshFetch := by
  intro s u i hrun h0 hl hu hdone
  obtain ⟨hstep, hb1, hb2, hop⟩ := State.finishPulse_completed hdone
  exact ⟨u.finishPulse, step_handler hrun h0 hl hu, hstep, hb1, hb2, hop, u.finishPulse_pc,
    u.finishPulse_sp, u.finishPulse_ir, u.finishPulse_acc, u.finishPulse_xReg, u.finishPulse_yReg,
    u.finishPulse_sReg,
    fun hr => ⟨_, step_fetch hr hstep, State.tick_fetchPulse_of_step_zero hstep⟩⟩

/-- Settles O15: `Decode(0, v)` is the write of the first latch byte, by definition. -/
theorem registerCopyDecodeSetsTheLatch : Obligations.RegisterCopyDecodeSetsTheLatch :=
  fun _ _ => rfl

end Sys2Proof.Machine
end

section
/-! PROOF. The statement of spec/43_control_system.md about the console: what one pulse emits, and an
induction over the pulses of an instruction that turns it into what a whole instruction emits. -/

namespace Sys2Proof.Machine

open Sys2Proof

/-! ### The console in one pulse -/

/-- `t` holds one console event more than `s`: a decimal numeral or a character (rule R175). -/
def State.EmitsOne (s t : State) : Prop :=
  ∃ n, t.console = s.console ++ [.dec n] ∨ t.console = s.console ++ [.chr n]

/-- SYS's action emits one event in modes 1 and 2 and none in any other mode (rule R174). -/
theorem State.sysCall_console (s : State) : s.sysCall.console = s.console ∨ s.EmitsOne s.sysCall := by
  rw [State.sysCall_eq]
  by_cases h1 : s.xReg = 1
  · exact .inr ⟨s.yReg, .inl (by simp [h1])⟩
  by_cases h2 : s.xReg = 2
  · exact .inr ⟨s.operand, .inr (by simp [h2])⟩
  · exact .inl (by simp [h1, h2])

/-- Of all handlers, only SYS's writes the console, and only in its action. -/
theorem HandlerPulse.console {i : Instr} {s t : State} (h : HandlerPulse i s t) :
    t.console = s.console ∨ (i = .sys ∧ s.step = 3 ∧ s.EmitsOne t) := by
  cases h with
  | sysCall h3 => exact s.sysCall_console.imp_right fun h => ⟨rfl, h3, h⟩
  | add => exact .inl (by simp [State.overflowFlag_eq])
  | compare => exact .inl (by simp [State.compareFlag_eq])
  | branch => exact .inl (by split <;> rfl)
  | decodeAbs => exact .inl (by simp [State.decodeAbs_eq])
  | _ => exact .inl rfl

@[simp] theorem State.finishPulse_console (s : State) : s.finishPulse.console = s.console := by
  rw [State.finishPulse_eq]
@[simp] theorem State.finishPulse_opcodeMap (s : State) : s.finishPulse.opcodeMap = s.opcodeMap := by
  rw [State.finishPulse_eq]

/-- A pulse leaves the console alone or is SYS's action and emits one event. The action's pulse starts
at step 2, because the pulse counts the step before the handler runs. -/
theorem step_console {s t : State} (h : step s = .next t) :
    t.console = s.console ∨ (s.opcodeMap.lookup s.ir = some .sys ∧ s.step = 2 ∧ s.EmitsOne t) := by
  obtain ⟨-, ⟨-, rfl⟩ | ⟨-, -, rfl⟩ | ⟨i, u, -, hl, hu, rfl⟩⟩ := step_cases h
  · exact .inl rfl
  · exact .inl (State.finishPulse_console _)
  · rcases (exec_cases hu).console with hsame | ⟨rfl, h3, hone⟩
    · exact .inl (by simpa using hsame)
    · exact .inr ⟨hl, by simpa using h3, by simpa [State.EmitsOne] using hone⟩

/-! ### The pulses of one instruction -/

/-- After pulse `k` of an instruction of row `i`, before its last pulse: the machine runs, the next
pulse invokes the handler of `i`, and nothing has completed the instruction or asserted `B`. -/
structure State.Underway (i : Instr) (k : Nat) (s : State) : Prop where
  running    : s.halted = false
  started    : k ≠ 0
  step_eq    : s.step = k
  row        : s.opcodeMap.lookup s.ir = some i
  incomplete : s.opComplete = false
  noBreak    : s.sReg ≠ .B

/-- No handler writes what the dispatch of the next pulse reads. -/
theorem HandlerPulse.dispatch_unchanged {i : Instr} {s t : State} (h : HandlerPulse i s t) :
    t.halted = s.halted ∧ t.ir = s.ir ∧ t.opcodeMap = s.opcodeMap := by
  cases h with
  | add => simp [State.overflowFlag_eq]
  | compare => simp [State.compareFlag_eq]
  | sysCall => simp [State.sysCall_eq]
  | branch => split <;> exact ⟨rfl, rfl, rfl⟩
  | decodeAbs => simp [State.decodeAbs_eq]
  | _ => exact ⟨rfl, rfl, rfl⟩

/-- Before its last step a handler neither completes the instruction nor asserts `B`. -/
theorem HandlerPulse.before_last {i : Instr} {s t : State} (h : HandlerPulse i s t)
    (hlt : s.step < stepCount i) (hB : s.sReg ≠ .B) :
    t.opComplete = s.opComplete ∧ t.sReg ≠ .B := by
  cases h with
  | lastCheck hlast => omega
  | breakNow hlast => exact absurd hlt (by simp [hlast, stepCount])
  | add =>
    rw [State.overflowFlag_eq]
    exact ⟨rfl, by dsimp only; split <;> simp [hB]⟩
  | compare =>
    rw [State.compareFlag_eq]
    exact ⟨rfl, by dsimp only; split <;> simp [hB]⟩
  | sysCall => exact ⟨by simp [State.sysCall_eq], by simpa [State.sysCall_eq] using hB⟩
  | branch => split <;> exact ⟨rfl, hB⟩
  | decodeAbs => exact ⟨by simp [State.decodeAbs_eq], by simpa [State.decodeAbs_eq] using hB⟩
  | _ => exact ⟨rfl, hB⟩

/-- The end of a pulse changes neither the step nor the halted latch of an instruction under way. -/
theorem State.finishPulse_incomplete {s : State} (hop : s.opComplete = false) (hB : s.sReg ≠ .B) :
    s.finishPulse.step = s.step ∧ s.finishPulse.halted = s.halted ∧ s.finishPulse.opComplete = false := by
  simp [State.finishPulse_eq, hop, hB]

/-- The fetch pulse puts the instruction it reads under way. -/
theorem step_fetch_underway {s : State} {i : Instr} (h : s.atFetch) (hi : s.nextRow = some i) :
    step s = .next s.tick.fetchPulse ∧ s.tick.fetchPulse.Underway i 1 := by
  obtain ⟨hrun, h0, -, -, hop, hB⟩ := h
  obtain ⟨hstep, -, hir⟩ := State.tick_fetchPulse_of_step_zero h0
  exact ⟨step_fetch hrun h0, hrun, by simp, hstep, by rw [hir]; exact hi, hop, hB⟩

/-- An instruction under way takes its next pulse, and stays under way unless that is its last. -/
theorem step_of_underway {i : Instr} {k : Nat} {s : State} (h : s.Underway i k) :
    ∃ t, step s = .next t ∧ (k + 1 < stepCount i → t.Underway i (k + 1)) := by
  obtain ⟨hrun, hk, hstep, hrow, hop, hB⟩ := h
  obtain ⟨u, hu⟩ := exec_isNext i s.tick
  refine ⟨u.finishPulse, step_handler hrun (hstep ▸ hk) hrow hu, fun hlt => ?_⟩
  obtain ⟨hrun', hir, hmap⟩ := (exec_cases hu).dispatch_unchanged
  obtain ⟨hop', hB'⟩ := (exec_cases hu).before_last (by simpa [hstep] using hlt) hB
  obtain ⟨hstep', hrun'', hop''⟩ := State.finishPulse_incomplete (hop'.trans hop) hB'
  exact {
    running := hrun''.trans (hrun'.trans hrun)
    started := by omega
    step_eq := by rw [hstep', exec_step hu, State.tick_step, hstep]
    row := by simpa [hir, hmap] using hrow
    incomplete := hop''
    noBreak := by simpa using hB' }

/-- One more pulse at the end of a run. -/
theorem runPulses_succ_of_step {n : Nat} {s t u : State} (h : runPulses n s = .next t)
    (hu : step t = .next u) : runPulses (n + 1) s = .next u := by
  rw [runPulses_add n 1 s t h]
  simp [runPulses, hu]

/-- Induction over the pulses of one instruction, from an instruction boundary to completion: what holds
of the state after the fetch pulse and is kept by every later pulse holds at the end. -/
theorem runPulses_instruction_induction {s : State} {i : Instr} {P : Nat → State → Prop}
    (h : s.atFetch) (hi : s.nextRow = some i) (fetch : P 1 s.tick.fetchPulse)
    (pulse : ∀ k t u, t.Underway i k → P k t → step t = .next u → P (k + 1) u) :
    ∃ t, runPulses (stepCount i) s = .next t ∧ P (stepCount i) t := by
  have before_last : ∀ k, k + 1 < stepCount i →
      ∃ t, runPulses (k + 1) s = .next t ∧ t.Underway i (k + 1) ∧ P (k + 1) t := by
    intro k
    induction k with
    | zero =>
      obtain ⟨hstep, hway⟩ := step_fetch_underway h hi
      exact fun _ => ⟨_, runPulses_succ_of_step rfl hstep, hway, fetch⟩
    | succ k ih =>
      intro hk
      obtain ⟨t, hrun, hway, hP⟩ := ih (by omega)
      obtain ⟨u, hu, hway'⟩ := step_of_underway hway
      exact ⟨u, runPulses_succ_of_step hrun hu, hway' hk, pulse _ t u hway hP hu⟩
  obtain ⟨k, hk⟩ : ∃ k, stepCount i = k + 2 := ⟨stepCount i - 2, by cases i <;> rfl⟩
  obtain ⟨t, hrun, hway, hP⟩ := before_last k (by omega)
  obtain ⟨u, hu, -⟩ := step_of_underway hway
  exact hk ▸ ⟨u, runPulses_succ_of_step hrun hu, pulse _ t u hway hP hu⟩

/-! ### The console over one instruction -/

/-- What pulse `k` of an instruction of row `i` that started in `s` can have left on the console: what
was there, or, past the action of SYS, one event more. -/
def State.ConsoleWithin (s : State) (i : Instr) (k : Nat) (t : State) : Prop :=
  t.console = s.console ∨ (i = .sys ∧ 2 < k ∧ s.EmitsOne t)

/-- Every pulse keeps within that bound: SYS's action is pulse 3, before which nothing was emitted. -/
theorem step_consoleWithin {s t u : State} {i : Instr} {k : Nat} (hway : t.Underway i k)
    (h : s.ConsoleWithin i k t) (hu : step t = .next u) : s.ConsoleWithin i (k + 1) u := by
  rcases step_console hu with hsame | ⟨hsys, h2, hone⟩
  · simp only [State.ConsoleWithin, State.EmitsOne, hsame] at h ⊢
    exact h.imp_right fun ⟨hi, hk, he⟩ => ⟨hi, by omega, he⟩
  · obtain rfl : i = .sys := by simpa [hway.row] using hsys
    have hk : k = 2 := hway.step_eq.symm.trans h2
    have hquiet : t.console = s.console := h.resolve_right fun ⟨_, hlate, _⟩ => by omega
    exact .inr ⟨rfl, by omega, by simpa [State.EmitsOne, hquiet] using hone⟩

/-- Settles O41: a pulse by the cases of `step`, an instruction by induction over its pulses. -/
theorem consoleEventsComeOnlyFromSys : Obligations.ConsoleEventsComeOnlyFromSys := by
  refine ⟨fun s t h => step_console h, fun s i hs hi => ?_⟩
  obtain ⟨t, hrun, hcon⟩ := runPulses_instruction_induction (P := s.ConsoleWithin i) hs hi (.inl rfl)
    fun k t u hway h hu => step_consoleWithin hway h hu
  exact ⟨t, hrun, fun hne => hcon.resolve_right fun ⟨hsys, _⟩ => hne hsys,
    hcon.imp_right fun ⟨_, _, hone⟩ => hone⟩

end Sys2Proof.Machine
end

section
/-! PROOF. The statements of spec/30_encoding.md: decoding inverts encoding and the other way round, and
the illegal opcodes. -/

namespace Sys2Proof

/-- Decoding answers an instruction exactly when the opcode cell selects its row and the cells after it
are the operand cells of the row's format and the rest (rules R70 to R73). -/
theorem decode_eq_ok_iff {m : OpcodeMap} {cells rest : List Nat} {c : Code} :
    decode m cells = .ok c rest ↔
      ∃ v, m.lookup v = some c.row ∧ c.wf = true ∧ cells = v :: (c.operands ++ rest) := by
  obtain ⟨i, ops⟩ := c
  constructor
  · intro h
    unfold decode at h
    split at h
    case h_1 => cases h
    case h_2 v tail =>
      split at h
      case h_1 => cases h
      case h_2 j hl =>
        refine ⟨v, ?_⟩
        split at h <;> cases h <;> simp_all [Code.wf, Format.operandCells]
  · rintro ⟨v, hl, hwf, rfl⟩
    have hlen : ops.length = i.format.operandCells := by simpa [Code.wf] using hwf
    simp only [decode, hl]
    cases hf : i.format <;> rw [hf] at hlen
    case imp | reg => obtain rfl := List.length_eq_zero_iff.1 hlen; rfl
    case imm => obtain ⟨k, rfl⟩ := List.length_eq_one_iff.1 hlen; rfl
    case abs => obtain ⟨lo, hi, rfl⟩ := List.length_eq_two.1 hlen; rfl

/-- Decoding refuses the opcode cell exactly when it selects no row. -/
theorem decode_eq_illegalOpcode_iff {m : OpcodeMap} {v : Nat} {rest : List Nat} :
    decode m (v :: rest) = .illegalOpcode v ↔ m.lookup v = none := by
  constructor
  · intro h
    simp only [decode] at h
    split at h
    · assumption
    · split at h <;> cases h
  · intro hl
    simp [decode, hl]

/-- Every opcode of the default map is a byte. -/
theorem OpcodeMap.default_code_le (i : Instr) : OpcodeMap.default.code i ≤ 255 := by
  cases i <;> decide

/-- Settles O1: the encoded row's opcode selects the row, and a well-formed instruction has the operand
cells that the decoder takes. -/
theorem decodeOfEncodeUnderEveryMap : Obligations.DecodeOfEncodeUnderEveryMap :=
  fun m c _ hm hc => decode_eq_ok_iff.2 ⟨m.code c.row, OpcodeMap.lookup_code hm c.row, hc, rfl⟩

/-- Settles O2: the opcode cell that selected the row is the row's opcode. -/
theorem encodeOfDecodeGivesTheCells : Obligations.EncodeOfDecodeGivesTheCells := by
  intro m cells c rest h
  obtain ⟨v, hl, hwf, rfl⟩ := decode_eq_ok_iff.1 h
  exact ⟨hwf, by simp [encode, OpcodeMap.code_of_lookup hl]⟩

/-- Settles O3: a value is refused when the lookup fails, and that is when no row has it. -/
theorem decodeRefusesExactlyTheIllegalOpcodes : Obligations.DecodeRefusesExactlyTheIllegalOpcodes :=
  fun _ _ _ => decode_eq_illegalOpcode_iff.trans OpcodeMap.lookup_eq_none

/-- Settles O4: the bytes by counting, the larger values because every default opcode is a byte. -/
theorem defaultMapLeavesTheOtherBytesIllegal : Obligations.DefaultMapLeavesTheOtherBytesIllegal := by
  refine ⟨OpcodeMap.default_wf, by decide +kernel, fun v hv => OpcodeMap.lookup_eq_none.2 fun i => ?_⟩
  have := OpcodeMap.default_code_le i
  omega

/-- Settles O5, by running the decoder on the seven lists of cells. -/
theorem exampleCellsDecode : Obligations.ExampleCellsDecode := by
  unfold Obligations.ExampleCellsDecode
  decide

end Sys2Proof
end

section
/-! PROOF. The statements about the arithmetic of addresses (spec/20_memory.md, spec/43_control_system.md)
and about the numerals of the console (rule R176). -/

namespace Sys2Proof.Machine

open Sys2Proof

theorem lo16_toNat (v : Nat) : (lo16 v).toNat = v % 65536 := BitVec.toNat_ofNat v 16

/-- Settles O32: both are `lo16` of a sum, which bytes do not exceed. -/
theorem addressArithmeticWraps : Obligations.AddressArithmeticWraps := by
  refine ⟨fun a => lo16_toNat _, fun lo hi => lo16_toNat _, fun lo hi hlo hhi => ?_⟩
  rw [compose, lo16_toNat]
  omega

theorem branchTarget_toNat (pc : Addr) (k : Nat) :
    ((branchTarget pc k).toNat : Int) = ((pc.toNat : Int) - (256 - k)) % 65536 := by
  simp only [branchTarget, branchDistance, BitVec.toNat_ofInt]
  omega

/-- Settles O33: the target is an integer residue, so `pc` is that of the target plus the distance. -/
theorem branchTargetsWrap : Obligations.BranchTargetsWrap := by
  intro pc k
  have htarget := branchTarget_toNat pc k
  have hpc : pc.toNat < 65536 := pc.isLt
  constructor <;> intro hk <;> omega

theorem digitChar_ne_zero_of_pos {d : Nat} (h0 : 0 < d) (h : d < 10) : d.digitChar ≠ '0' := by
  interval_cases d <;> decide

/-- The numeral of a positive number has no leading zero. -/
theorem toDigits_head_ne_zero (n : Nat) (h : 0 < n) : (Nat.toDigits 10 n).head? ≠ some '0' := by
  induction n using Nat.strongRecOn with
  | _ n ih =>
    by_cases hn : n < 10
    · rw [Nat.toDigits_of_lt_base hn]
      simpa using digitChar_ne_zero_of_pos h hn
    · rw [Nat.toDigits_of_base_le (by decide) (by omega),
        List.head?_append_of_ne_nil _ Nat.toDigits_ne_nil]
      exact ih (n / 10) (by omega) (by omega)

/-- Settles O34: digits and value are the library's, the leading digit is `toDigits_head_ne_zero`. -/
theorem decimalEventsDenoteTheNumeral : Obligations.DecimalEventsDenoteTheNumeral := by
  intro n
  refine ⟨Nat.toDigits 10 n, rfl, Nat.toDigits_ne_nil, fun c hc => ?digit, fun hz => ?leading, ?value⟩
  case digit =>
    have hdigit : c.isDigit = true := Nat.isDigit_of_mem_toDigits (by decide) (by decide) hc
    simpa [Char.isDigit, UInt32.le_iff_toNat_le] using hdigit
  case leading =>
    rcases Nat.eq_zero_or_pos n with rfl | hpos
    · exact Nat.toDigits_zero 10
    · exact absurd hz (toDigits_head_ne_zero n hpos)
  case value =>
    rw [← Nat.ofDigitChars_eq_foldl]
    exact Nat.ofDigitChars_ten_toDigits

end Sys2Proof.Machine
end

section
/-! PROOF. Frames (spec/10_state.md): what each pulse of a handler, and each pulse, may write. -/

namespace Sys2Proof.Machine

open Sys2Proof

/-! ### What no handler writes -/

/-- `t` has the pulse number, the interrupt answers and the parameters of `s` (rules R6, R30, R38). -/
structure State.SameHost (s t : State) : Prop where
  cycle      : t.cycle = s.cycle
  irqPending : t.irqPending = s.irqPending
  irqFuture  : t.irqFuture = s.irqFuture
  irqSource  : t.irqSource = s.irqSource
  opcodeMap  : t.opcodeMap = s.opcodeMap
  diag       : t.diag = s.diag

theorem State.SameHost.trans {s t u : State} (h : s.SameHost t) (h' : t.SameHost u) : s.SameHost u where
  cycle := h'.cycle.trans h.cycle
  irqPending := h'.irqPending.trans h.irqPending
  irqFuture := h'.irqFuture.trans h.irqFuture
  irqSource := h'.irqSource.trans h.irqSource
  opcodeMap := h'.opcodeMap.trans h.opcodeMap
  diag := h'.diag.trans h.diag

/-- The host's answers from here on are a function of what `SameHost` compares. -/
theorem State.SameHost.irqAt {s t : State} (h : s.SameHost t) (n : Nat) : t.irqAt n = s.irqAt n := by
  rw [State.irqAt, State.irqAt, h.irqFuture, h.irqSource, h.cycle]

/-- `t` agrees with `s` on everything that only the pulse around a handler writes (rule R40). -/
structure State.SameControl (s t : State) : Prop extends State.SameHost s t where
  ir         : t.ir = s.ir
  step       : t.step = s.step
  trace      : t.trace = s.trace
  halted     : t.halted = s.halted
  shutdown   : t.shutdown = s.shutdown
  traceDumps : t.traceDumps = s.traceDumps

/-- BNE's action as one record update. -/
theorem State.branch_eq (s : State) :
    (if s.branchTaken then s.setPc (branchTarget s.pc s.operand) else s) =
      { s with pc := if s.branchTaken then branchTarget s.pc s.operand else s.pc } := by
  split <;> rfl

theorem HandlerPulse.sameControl {i : Instr} {s t : State} (h : HandlerPulse i s t) : s.SameControl t := by
  cases h with
  | add => rw [State.overflowFlag_eq]; constructor <;> constructor <;> rfl
  | compare => rw [State.compareFlag_eq]; constructor <;> constructor <;> rfl
  | sysCall => rw [State.sysCall_eq]; constructor <;> constructor <;> rfl
  | branch => rw [State.branch_eq]; constructor <;> constructor <;> rfl
  | decodeAbs => rw [State.decodeAbs_eq]; constructor <;> constructor <;> rfl
  | _ => constructor <;> constructor <;> rfl

/-! ### Who writes what -/

theorem HandlerPulse.acc {i : Instr} {s t : State} (h : HandlerPulse i s t) :
    t.acc = s.acc ∨ i ∈ [Instr.ldaImm, .lda, .txa, .tya, .adc, .inc] := by
  cases h with
  | copyToAcc hi => right; simp only [List.mem_cons] at hi ⊢; tauto
  | loadAcc hi => right; simp only [List.mem_cons] at hi ⊢; tauto
  | successor => right; simp
  | add => right; simp
  | compare => left; rw [State.compareFlag_eq]
  | sysCall => left; rw [State.sysCall_eq]
  | branch => left; rw [State.branch_eq]
  | decodeAbs => left; rw [State.decodeAbs_eq]
  | _ => left; rfl

theorem HandlerPulse.xReg {i : Instr} {s t : State} (h : HandlerPulse i s t) :
    t.xReg = s.xReg ∨ i ∈ [Instr.ldxImm, .ldx, .tax] := by
  cases h with
  | copyToX hi => right; simp only [List.mem_cons] at hi ⊢; tauto
  | loadX => right; simp
  | add => left; rw [State.overflowFlag_eq, State.setAcc_xReg]
  | compare => left; rw [State.compareFlag_eq]
  | sysCall => left; rw [State.sysCall_eq]
  | branch => left; rw [State.branch_eq]
  | decodeAbs => left; rw [State.decodeAbs_eq]
  | _ => left; rfl

theorem HandlerPulse.yReg {i : Instr} {s t : State} (h : HandlerPulse i s t) :
    t.yReg = s.yReg ∨ i ∈ [Instr.ldyImm, .ldy, .tay] := by
  cases h with
  | copyToY hi => right; simp only [List.mem_cons] at hi ⊢; tauto
  | loadY => right; simp
  | add => left; rw [State.overflowFlag_eq, State.setAcc_yReg]
  | compare => left; rw [State.compareFlag_eq]
  | sysCall => left; rw [State.sysCall_eq]
  | branch => left; rw [State.branch_eq]
  | decodeAbs => left; rw [State.decodeAbs_eq]
  | _ => left; rfl

/-- `pc` moves on in the decode of an operand cell and is set by BNE's action; nothing else writes it. -/
theorem HandlerPulse.pc {i : Instr} {s t : State} (h : HandlerPulse i s t) :
    (((i.format = .imm ∧ s.step = 2) ∨ (i.format = .abs ∧ (s.step = 2 ∨ s.step = 3))) ∧
        t.pc = nextAddr s.pc) ∨
      (i = .bne ∧ s.step = 3) ∨ t.pc = s.pc := by
  cases h with
  | decodeImm hf h2 => exact .inl ⟨.inl ⟨hf, h2⟩, rfl⟩
  | decodeAbs hf h23 => exact .inl ⟨.inr ⟨hf, h23⟩, by rw [State.decodeAbs_eq]⟩
  | branch h3 => exact .inr (.inl ⟨rfl, h3⟩)
  | add => right; right; rw [State.overflowFlag_eq, State.setAcc_pc]
  | compare => right; right; rw [State.compareFlag_eq]
  | sysCall => right; right; rw [State.sysCall_eq]
  | _ => right; right; rfl

/-- `sp` is written by the second address decode alone, which composes it. -/
theorem HandlerPulse.sp {i : Instr} {s t : State} (h : HandlerPulse i s t) :
    t.sp = s.sp ∨
      (i.format = .abs ∧ (s.step = 2 ∨ s.step = 3) ∧
        ∃ lo, s.decodedByte1 = some lo ∧ t.sp = compose lo (s.memRead (nextAddr s.pc))) := by
  cases h with
  | decodeAbs hf h23 =>
    cases hb : s.decodedByte1 with
    | none => left; rw [s.decodeAbs_first hb]
    | some lo => exact .inr ⟨hf, h23, lo, rfl, by rw [s.decodeAbs_second hb]⟩
  | add => left; rw [State.overflowFlag_eq, State.setAcc_sp]
  | compare => left; rw [State.compareFlag_eq]
  | sysCall => left; rw [State.sysCall_eq]
  | branch => left; rw [State.branch_eq]
  | _ => left; rfl

/-- The store is written by STA's action and by INC's write-back alone, at `sp`. -/
theorem HandlerPulse.mem {i : Instr} {s t : State} (h : HandlerPulse i s t) :
    t.mem = s.mem ∨
      (((i = .sta ∧ s.step = 4) ∨ (i = .inc ∧ s.step = 6)) ∧
        t.mem = Memory.write s.mem s.sp.toNat s.acc) := by
  cases h with
  | store hi => exact .inr ⟨hi, rfl⟩
  | add => left; rw [State.overflowFlag_eq, State.setAcc_mem]
  | compare => left; rw [State.compareFlag_eq]
  | sysCall => left; rw [State.sysCall_eq]
  | branch => left; rw [State.branch_eq]
  | decodeAbs => left; rw [State.decodeAbs_eq]
  | _ => left; rfl

/-- A handler's four sources of a flag. -/
theorem HandlerPulse.sReg {i : Instr} {s t : State} (h : HandlerPulse i s t) :
    t.sReg = s.sReg ∨
      (t.sReg = .Z ∧ i = .cpx ∧ s.step = 4 ∧ s.xReg = s.memRead s.sp) ∨
      (t.sReg = .V ∧ i = .adc ∧ s.step = 4 ∧ 0xFFFF < s.acc + s.memRead s.sp) ∨
      (t.sReg = .I ∧ s.irqPending = true ∧ i ≠ .brk ∧ s.step = stepCount i) ∨
      (t.sReg = .B ∧ i = .brk ∧ s.step = 3) := by
  cases h with
  | compare h4 =>
    by_cases heq : s.xReg = s.memRead s.sp
    · exact .inr (.inl ⟨by simp [State.compareFlag_eq, heq], rfl, h4, heq⟩)
    · exact .inl (by simp [State.compareFlag_eq, heq])
  | add h4 =>
    by_cases hV : 0xFFFF < s.acc + s.memRead s.sp
    · exact .inr (.inr (.inl ⟨by simp [State.overflowFlag_eq, adcLimit, hV], rfl, h4, hV⟩))
    · exact .inl (by simp [State.overflowFlag_eq, adcLimit, hV])
  | lastCheck hN hb =>
    by_cases hI : s.irqPending = true
    · exact .inr (.inr (.inr (.inl ⟨by simp [State.interruptCheck_eq, hI], hI, hb, hN⟩)))
    · exact .inl (by simp [State.interruptCheck_eq, hI])
  | breakNow h3 => exact .inr (.inr (.inr (.inr ⟨rfl, rfl, h3⟩)))
  | sysCall => left; rw [State.sysCall_eq]
  | branch => left; rw [State.branch_eq]
  | decodeAbs => left; rw [State.decodeAbs_eq]
  | _ => left; rfl

/-- A handler reports ADC's overflow, SYS's unsupported mode or a step outside its range. -/
theorem HandlerPulse.reports {i : Instr} {s t : State} (h : HandlerPulse i s t) :
    t.reports = s.reports ∨
      (i = .adc ∧ s.step = 4 ∧ 0xFFFF < t.acc ∧ t.reports = s.reports ++ [.overflowWarning t.acc]) ∨
      (i = .sys ∧ s.step = 3 ∧ s.xReg ≠ 1 ∧ s.xReg ≠ 2 ∧
        t.reports = s.reports ++ [.unsupportedSys s.xReg]) ∨
      ((s.step < 2 ∨ stepCount i < s.step) ∧
        t.reports = s.reports ++ [.stepRangeError s.ir s.step]) := by
  cases h with
  | stepRange hr => exact .inr (.inr (.inr ⟨hr, rfl⟩))
  | add h4 =>
    rw [State.overflowFlag_eq]
    by_cases hV : 0xFFFF < s.acc + s.memRead s.sp
    · exact .inr (.inl ⟨rfl, h4, hV, by simp [adcLimit, hV]⟩)
    · exact .inl (by simp [adcLimit, hV])
  | sysCall h3 =>
    rw [State.sysCall_eq]
    by_cases h1 : s.xReg = 1
    · exact .inl (by simp [h1])
    by_cases h2 : s.xReg = 2
    · exact .inl (by simp [h2])
    · exact .inr (.inr (.inl ⟨rfl, h3, h1, h2, by simp [h1, h2]⟩))
  | compare => left; rw [State.compareFlag_eq]
  | branch => left; rw [State.branch_eq]
  | decodeAbs => left; rw [State.decodeAbs_eq]
  | _ => left; rfl

/-! ### The end of a pulse -/

@[simp] theorem State.finishPulse_mem (s : State) : s.finishPulse.mem = s.mem := by rw [State.finishPulse_eq]
@[simp] theorem State.finishPulse_reports (s : State) : s.finishPulse.reports = s.reports := by
  rw [State.finishPulse_eq]

theorem State.sameHost_finishPulse (s : State) : s.SameHost s.finishPulse := by
  rw [State.finishPulse_eq]
  constructor <;> rfl

/-- With the break flag the end of a pulse halts the machine, after handing over the whole trace. -/
theorem State.finishPulse_of_break {s : State} (h : s.sReg = .B) :
    s.finishPulse.halted = true ∧ s.finishPulse.shutdown = s.shutdown ++ [.requestShutdown] ∧
      s.finishPulse.traceDumps =
        if s.diag = true then s.traceDumps ++ [s.finishPulse.trace] else s.traceDumps := by
  simp [State.finishPulse_eq, h]

theorem State.finishPulse_of_noBreak {s : State} (h : s.sReg ≠ .B) :
    s.finishPulse.halted = s.halted ∧ s.finishPulse.shutdown = s.shutdown ∧
      s.finishPulse.traceDumps = s.traceDumps := by
  simp [State.finishPulse_eq, h]

/-! ### Whole pulses -/

/-- Every pulse answers the interrupt input and counts as `tick` does, and leaves the parameters. -/
theorem step_sameHost {s t : State} (h : step s = .next t) : s.tick.SameHost t := by
  obtain ⟨-, ⟨-, rfl⟩ | ⟨-, -, rfl⟩ | ⟨i, u, -, -, hu, rfl⟩⟩ := step_cases h
  · constructor <;> rfl
  · exact .trans (t := s.tick.illegalOpcode) ⟨rfl, rfl, rfl, rfl, rfl, rfl⟩ (State.sameHost_finishPulse _)
  · exact (exec_cases hu).sameControl.toSameHost.trans u.sameHost_finishPulse

/-- The answers that are left after a pulse. -/
theorem step_irqAt {s t : State} (h : step s = .next t) (n : Nat) : t.irqAt (n + 1) = s.irqAt (n + 2) := by
  rw [State.irqAt_succ, (step_sameHost h).irqAt]

/-- A pulse past the fetch ends with `finishPulse`, and nothing before that in the pulse halts the
machine or writes the Trace Log or the shutdown channel. -/
theorem step_eq_finishPulse {s t : State} (h : step s = .next t) (h0 : s.step ≠ 0) :
    ∃ u : State, t = u.finishPulse ∧ u.halted = false ∧ u.shutdown = s.shutdown ∧
      u.traceDumps = s.traceDumps ∧ u.diag = s.diag := by
  obtain ⟨hrun, ⟨hz, -⟩ | ⟨-, -, rfl⟩ | ⟨i, u, -, -, hu, rfl⟩⟩ := step_cases h
  · exact absurd hz h0
  · exact ⟨_, rfl, hrun, rfl, rfl, rfl⟩
  · have hc := (exec_cases hu).sameControl
    exact ⟨u, rfl, hc.halted.trans hrun, hc.shutdown, hc.traceDumps, hc.diag⟩

/-- The Trace Log grows by the entry of this pulse, whose number is the one that the pulse counted. -/
theorem step_trace {s t : State} (h : step s = .next t) :
    ∃ e : TraceEntry, t.trace = s.trace ++ [e] ∧ e.cycle = s.cycle + 1 := by
  obtain ⟨-, ⟨-, rfl⟩ | ⟨-, -, rfl⟩ | ⟨i, u, -, -, hu, rfl⟩⟩ := step_cases h
  · exact ⟨_, rfl, rfl⟩
  · exact ⟨_, State.finishPulse_trace _, rfl⟩
  · have hc := (exec_cases hu).sameControl
    exact ⟨u.snapshot, by rw [State.finishPulse_trace, hc.trace, State.tick_trace], hc.cycle⟩

/-- The report channel grows by at most one record. -/
theorem step_reports {s t : State} (h : step s = .next t) : ∃ l, t.reports = s.reports ++ l := by
  obtain ⟨-, ⟨-, rfl⟩ | ⟨-, -, rfl⟩ | ⟨i, u, -, -, hu, rfl⟩⟩ := step_cases h
  · exact ⟨[], (List.append_nil _).symm⟩
  · exact ⟨_, State.finishPulse_reports _⟩
  · rw [State.finishPulse_reports]
    rcases (exec_cases hu).reports with hr | ⟨-, -, -, hr⟩ | ⟨-, -, -, -, hr⟩ | ⟨-, hr⟩
    · exact ⟨[], hr.trans (List.append_nil _).symm⟩
    · exact ⟨_, hr⟩
    · exact ⟨_, hr⟩
    · exact ⟨_, hr⟩

/-! ### The statements -/

/-- Settles O8: a running machine takes one of the three kinds of pulse, and every handler answers. -/
theorem pulseIsEnabledExactlyWhenRunning : Obligations.PulseIsEnabledExactlyWhenRunning := by
  intro s
  refine ⟨fun hrun => ?_, fun hhalt => by simp [step, hostPulse, hhalt]⟩
  by_cases h0 : s.step = 0
  · exact ⟨_, step_fetch hrun h0⟩
  cases hl : s.opcodeMap.lookup s.ir with
  | none => exact ⟨_, step_illegal hrun h0 hl⟩
  | some i =>
    obtain ⟨u, hu⟩ := exec_isNext i s.tick
    exact ⟨_, step_handler hrun h0 hl hu⟩

/-- Settles O35, field by field from the frames of the handler pulses. -/
theorem registersAreWrittenOnlyByTheirInstructions :
    Obligations.RegistersAreWrittenOnlyByTheirInstructions := by
  intro i s t h
  have hp := exec_cases h
  obtain ⟨⟨hcycle, hirq, hfuture, hsource, hmap, hdiag⟩, hir, hstep, htrace, hhalted, hshut, hdumps⟩ :=
    hp.sameControl
  refine ⟨hp.acc.resolve_left, hp.xReg.resolve_left, hp.yReg.resolve_left,
    fun hne => (hp.sp.resolve_left hne).1, fun hne => ?pc, hir, hstep, hcycle, htrace, hhalted, hshut,
    hdumps, hirq, hfuture, hsource, hmap, hdiag⟩
  case pc =>
    rcases hp.pc with ⟨⟨hf, -⟩ | ⟨hf, -⟩, -⟩ | ⟨rfl, -⟩ | hsame
    · exact .inl hf
    · exact .inr hf
    · exact .inl rfl
    · exact absurd hsame hne

/-- Settles O36: any other handler pulse leaves the store as it is. -/
theorem onlyStoringPulsesChangeTheStore : Obligations.OnlyStoringPulsesChangeTheStore :=
  fun _ _ _ h hsta hinc a =>
    State.memRead_congr ((exec_cases h).mem.resolve_right fun hw => hw.1.elim hsta hinc) a

/-- Settles O37: what the host decides is as after `tick`, and `sp` and `ir` by the kinds of pulse. -/
theorem pulseFrame : Obligations.PulseFrame := by
  intro s t h
  obtain ⟨hcycle, hirq, hfuture, hsource, hmap, hdiag⟩ := step_sameHost h
  have hanswer : t.irqPending = s.irqAt 1 := hirq.trans s.irqAt_one.symm
  refine ⟨hcycle, ?ir, ?sp, hmap, hdiag, hsource, hfuture, hanswer, fun hnil => ?draw⟩
  case draw => rw [hanswer, s.irqAt_free 1 (by simp [hnil]), hsource, hcycle]; rfl
  all_goals obtain ⟨-, ⟨h0, rfl⟩ | ⟨-, -, rfl⟩ | ⟨i, u, -, hl, hu, rfl⟩⟩ := step_cases h
  case ir.inl => exact fun hne => absurd h0 hne
  case ir.inr.inl => exact fun _ => State.finishPulse_ir _
  case ir.inr.inr => exact fun _ => (State.finishPulse_ir u).trans (exec_cases hu).sameControl.ir
  case sp.inl => exact fun hne => absurd rfl hne
  case sp.inr.inl => exact fun hne => absurd (State.finishPulse_sp _) hne
  case sp.inr.inr =>
    rw [State.finishPulse_sp]
    intro hne
    obtain ⟨hf, h23, lo, hlo, hsp⟩ := (exec_cases hu).sp.resolve_left hne
    exact ⟨i, lo, hl, hf, by simpa using h23, hlo, hsp⟩

/-- Settles O38: a handler's sources, at the step that the pulse counted, and the illegal opcode. -/
theorem flagIsWrittenOnlyByItsSources : Obligations.FlagIsWrittenOnlyByItsSources := by
  intro s t h hne
  obtain ⟨-, ⟨-, rfl⟩ | ⟨h0, hl, rfl⟩ | ⟨i, u, h0, hl, hu, rfl⟩⟩ := step_cases h
  · exact absurd rfl hne
  · exact .inr (.inr (.inr ⟨by rw [State.finishPulse_sReg]; rfl, h0, .inl hl⟩))
  · rw [State.finishPulse_sReg] at hne ⊢
    rcases (exec_cases hu).sReg.resolve_left hne with
      ⟨hZ, rfl, h4, heq⟩ | ⟨hV, rfl, h4, hsum⟩ | ⟨hI, hirq, hb, hN⟩ | ⟨hB, rfl, h3⟩
    · exact .inl ⟨hZ, hl, Nat.succ.inj h4, heq⟩
    · exact .inr (.inl ⟨hV, hl, Nat.succ.inj h4, hsum⟩)
    · exact .inr (.inr (.inl ⟨hI, s.irqAt_one.trans hirq, i, hl, hb, hN⟩))
    · exact .inr (.inr (.inr ⟨hB, h0, .inr ⟨hl, Nat.succ.inj h3⟩⟩))

/-- Settles O39: `sReg` changes only to a flag of one of its sources, none of which is "none". -/
theorem noPulseClearsTheFlagRegister : Obligations.NoPulseClearsTheFlagRegister := by
  refine ⟨⟨rfl, rfl, rfl, rfl, rfl⟩, fun s t h hset => ?_⟩
  by_cases hsame : t.sReg = s.sReg
  · rwa [hsame]
  · rcases flagIsWrittenOnlyByItsSources s t h hsame with ⟨hf, -⟩ | ⟨hf, -⟩ | ⟨hf, -⟩ | ⟨hf, -⟩ <;>
      simp [hf]

/-- Settles O40: within the range the step-range report is out of the question. -/
theorem handlersReportOnlyTheirConditions : Obligations.HandlersReportOnlyTheirConditions := by
  intro i s t h2 hN h
  rcases (exec_cases h).reports with hr | hadc | hsys | ⟨hrange, -⟩
  · exact .inl hr
  · exact .inr (.inl hadc)
  · exact .inr (.inr hsys)
  · omega

/-- Settles O13: the end of the pulse decides by the break flag, whose sources are those of O38. -/
theorem haltCheckSendsTheShutdownRequest : Obligations.HaltCheckSendsTheShutdownRequest := by
  intro s t h
  refine ⟨fun h0 => ?fetch, fun h0 hB => ?flag, fun h0 hB => ?noBreak, fun hs hB => ?sources,
    fun h0 hl => ?illegal⟩
  case fetch =>
    have hrun : s.halted = false := (step_cases h).1
    obtain rfl : s.tick.fetchPulse = t := by simpa [step_fetch hrun h0] using h
    exact ⟨hrun, rfl, rfl⟩
  case flag =>
    obtain ⟨u, rfl, -, hshut, hdumps, hdiag⟩ := step_eq_finishPulse h h0
    have hend := State.finishPulse_of_break (s := u) (by simpa using hB)
    rwa [hshut, hdumps, hdiag] at hend
  case noBreak =>
    obtain ⟨u, rfl, hrun, hshut, hdumps, -⟩ := step_eq_finishPulse h h0
    have hend := State.finishPulse_of_noBreak (s := u) (by simpa using hB)
    rwa [hrun, hshut, hdumps] at hend
  case sources =>
    have hne : t.sReg ≠ s.sReg := fun heq => hs (heq ▸ hB)
    rcases flagIsWrittenOnlyByItsSources s t h hne with ⟨hf, -⟩ | ⟨hf, -⟩ | ⟨hf, -⟩ | ⟨-, hsrc⟩
    case inr.inr.inr => exact hsrc
    all_goals exact absurd (hf.symm.trans hB) (by decide)
  case illegal =>
    obtain rfl : s.tick.illegalOpcode.finishPulse = t := by
      simpa [step_illegal (step_cases h).1 h0 hl] using h
    exact State.finishPulse_sReg _

/-- Settles O42: channel by channel, what a pulse appends. -/
theorem outputsAreAppendOnly : Obligations.OutputsAreAppendOnly := by
  intro s t h
  refine ⟨?trace, ?console, ?reports, ?shutdown⟩
  case trace =>
    obtain ⟨e, he, -⟩ := step_trace h
    exact ⟨[e], he.symm⟩
  case console =>
    rcases step_console h with hc | ⟨-, -, n, hc | hc⟩ <;> simp [hc]
  case reports =>
    obtain ⟨l, hl⟩ := step_reports h
    exact ⟨l, hl.symm⟩
  case shutdown =>
    obtain ⟨hfetch, hflag, hnoBreak, -, -⟩ := haltCheckSendsTheShutdownRequest s t h
    by_cases h0 : s.step = 0
    · obtain ⟨-, hshut, hdumps⟩ := hfetch h0
      simp [hshut, hdumps]
    by_cases hB : t.sReg = .B
    · obtain ⟨-, hshut, hdumps⟩ := hflag h0 hB
      exact ⟨by simp [hshut], by rw [hdumps]; split <;> simp⟩
    · obtain ⟨-, hshut, hdumps⟩ := hnoBreak h0 hB
      simp [hshut, hdumps]

end Sys2Proof.Machine
end

section
/-! PROOF. The statements about one pulse (spec/40_pipeline.md) and about the action of one handler
(spec/41_load_store_transfer.md, 42_arith_compare.md, 43_control_system.md), from one equation per step
of each schedule of rule R106. -/

namespace Sys2Proof.Machine

open Sys2Proof

/-! ### The schedules, step by step -/

section
variable {source : State → Nat} {action read modify write : State → State} {s : State}

theorem impSchedule_idle (h : s.step = 2) : impSchedule action s = .next s := by
  simp [impSchedule, h]
theorem impSchedule_last (h : s.step = 3) : impSchedule action s = .next (action s) := by
  simp [impSchedule, h]

theorem regSchedule_copy (h : s.step = 2) : regSchedule source action s = .next (s.latch1 (source s)) := by
  simp [regSchedule, h, State.decodeReg]
theorem regSchedule_action (h : s.step = 3) : regSchedule source action s = .next (action s) := by
  simp [regSchedule, h]
theorem regSchedule_check (h : s.step = 4) : regSchedule source action s = .next s.interruptCheck := by
  simp [regSchedule, h]

theorem immSchedule_decode (h : s.step = 2) : immSchedule action s = .next s.decodeImm := by
  simp [immSchedule, h]
theorem immSchedule_action (h : s.step = 3) : immSchedule action s = .next (action s) := by
  simp [immSchedule, h]
theorem immSchedule_check (h : s.step = 4) : immSchedule action s = .next s.interruptCheck := by
  simp [immSchedule, h]

theorem absSchedule_decode (h : s.step = 2 ∨ s.step = 3) : absSchedule action s = .next s.decodeAbs := by
  rcases h with h | h <;> simp [absSchedule, h]
theorem absSchedule_action (h : s.step = 4) : absSchedule action s = .next (action s) := by
  simp [absSchedule, h]
theorem absSchedule_check (h : s.step = 5) : absSchedule action s = .next s.interruptCheck := by
  simp [absSchedule, h]

theorem rmwSchedule_decode (h : s.step = 2 ∨ s.step = 3) :
    rmwSchedule read modify write s = .next s.decodeAbs := by
  rcases h with h | h <;> simp [rmwSchedule, h]
theorem rmwSchedule_read (h : s.step = 4) : rmwSchedule read modify write s = .next (read s) := by
  simp [rmwSchedule, h]
theorem rmwSchedule_modify (h : s.step = 5) : rmwSchedule read modify write s = .next (modify s) := by
  simp [rmwSchedule, h]
theorem rmwSchedule_write (h : s.step = 6) : rmwSchedule read modify write s = .next (write s) := by
  simp [rmwSchedule, h]
theorem rmwSchedule_check (h : s.step = 7) :
    rmwSchedule read modify write s = .next s.interruptCheck := by
  simp [rmwSchedule, h]

end

/-! ### The pulses that the rows of a format share -/

theorem exec_eq_immSchedule {i : Instr} (hf : i.format = .imm) :
    ∃ action, ∀ s, exec i s = immSchedule action s := by
  cases i with
  | ldaImm => exact ⟨_, exec_ldaImm⟩
  | ldxImm => exact ⟨_, exec_ldxImm⟩
  | ldyImm => exact ⟨_, exec_ldyImm⟩
  | bne => exact ⟨_, exec_bne⟩
  | _ => cases hf

theorem exec_eq_regSchedule {i : Instr} (hf : i.format = .reg) :
    ∃ source action, ∀ s, exec i s = regSchedule source action s := by
  cases i with
  | txa => exact ⟨_, _, exec_txa⟩
  | tya => exact ⟨_, _, exec_tya⟩
  | tax => exact ⟨_, _, exec_tax⟩
  | tay => exact ⟨_, _, exec_tay⟩
  | sys => exact ⟨_, _, exec_sys⟩
  | _ => cases hf

theorem exec_eq_absSchedule {i : Instr} (hf : i.format = .abs) (hi : i ≠ .inc) :
    ∃ action, ∀ s, exec i s = absSchedule action s := by
  cases i with
  | lda => exact ⟨_, exec_lda⟩
  | sta => exact ⟨_, exec_sta⟩
  | adc => exact ⟨_, exec_adc⟩
  | ldx => exact ⟨_, exec_ldx⟩
  | ldy => exact ⟨_, exec_ldy⟩
  | cpx => exact ⟨_, exec_cpx⟩
  | inc => exact absurd rfl hi
  | _ => cases hf

/-- The step count of a row by its format (rules R106, R217). -/
theorem stepCount_eq (i : Instr) :
    stepCount i =
      match i.format with
      | .imp => 3
      | .reg => 4
      | .imm => 4
      | .abs => if i = .inc then 7 else 5 := by
  cases i <;> rfl

/-- Step 2 of the immediate rows decodes the operand cell. -/
theorem exec_decodeImm {i : Instr} {s : State} (hf : i.format = .imm) (h : s.step = 2) :
    exec i s = .next s.decodeImm := by
  obtain ⟨action, hi⟩ := exec_eq_immSchedule hf
  rw [hi, immSchedule_decode h]

/-- Steps 2 and 3 of the rows with an address decode it. -/
theorem exec_decodeAbs {i : Instr} {s : State} (hf : i.format = .abs) (h : s.step = 2 ∨ s.step = 3) :
    exec i s = .next s.decodeAbs := by
  by_cases hinc : i = .inc
  · rw [hinc, exec_inc, rmwSchedule_decode h]
  · obtain ⟨action, hi⟩ := exec_eq_absSchedule hf hinc
    rw [hi, absSchedule_decode h]

/-- The last step of every row but BRK is the interrupt check. -/
theorem exec_interruptCheck {i : Instr} {s : State} (hb : i ≠ .brk) (h : s.step = stepCount i) :
    exec i s = .next s.interruptCheck := by
  rw [stepCount_eq] at h
  cases hf : i.format <;> simp only [hf] at h
  case imp =>
    obtain rfl : i = .nop := by cases i <;> simp_all [Instr.format]
    exact impSchedule_last h
  case reg =>
    obtain ⟨source, action, hi⟩ := exec_eq_regSchedule hf
    rw [hi, regSchedule_check h]
  case imm =>
    obtain ⟨action, hi⟩ := exec_eq_immSchedule hf
    rw [hi, immSchedule_check h]
  case abs =>
    by_cases hinc : i = .inc
    · rw [hinc, exec_inc, rmwSchedule_check (by simpa [hinc] using h)]
    · obtain ⟨action, hi⟩ := exec_eq_absSchedule hf hinc
      rw [hi, absSchedule_check (by simpa [hinc] using h)]

/-- Every row has the fetch and at least two steps after it. -/
theorem three_le_stepCount (i : Instr) : 3 ≤ stepCount i := by cases i <;> decide

/-- A row with an address has two decode steps, an action and the interrupt check after the fetch. -/
theorem five_le_stepCount_of_abs {i : Instr} (hf : i.format = .abs) : 5 ≤ stepCount i := by
  cases i with
  | lda | sta | adc | ldx | ldy | cpx | inc => decide
  | _ => cases hf

/-- Outside its step range a handler only reports: every other pulse of a handler is within it. -/
theorem HandlerPulse.eq_stepRangeError {i : Instr} {s t : State} (h : HandlerPulse i s t)
    (hr : s.step < 2 ∨ stepCount i < s.step) : t = s.stepRangeError := by
  have h3 := three_le_stepCount i
  cases h with
  | stepRange => rfl
  | decodeAbs hf =>
    have h5 := five_le_stepCount_of_abs hf
    omega
  | loadAcc hi h4 =>
    obtain rfl | rfl : i = .lda ∨ i = .inc := by simpa using hi
    all_goals simp [h4, stepCount] at hr
  | store hi => obtain ⟨rfl, hn⟩ | ⟨rfl, hn⟩ := hi <;> simp [hn, stepCount] at hr
  | loadX h4 | loadY h4 | add h4 | compare h4 => simp [h4, stepCount] at hr
  | successor h5 => simp [h5, stepCount] at hr
  | _ => omega

theorem exec_stepRangeError {i : Instr} {s : State} (hr : s.step < 2 ∨ stepCount i < s.step) :
    exec i s = .next s.stepRangeError := by
  obtain ⟨t, ht⟩ := exec_isNext i s
  rw [ht, (exec_cases ht).eq_stepRangeError hr]

/-! ### The store's write, and the flag rules case by case -/

/-- A write to a canonical store stores the value in its cell and nothing else anywhere. -/
theorem State.memWrite_spec {s : State} (h : s.mem.wf = true) (a : Addr) (v : Nat) :
    (s.memWrite a v).memRead a = v ∧ (∀ b, b ≠ a → (s.memWrite a v).memRead b = s.memRead b) ∧
      (s.memWrite a v).mem.wf = true ∧ s.memWrite a v = { s with mem := (s.memWrite a v).mem } :=
  ⟨State.memRead_memWrite_same h a v, fun _ hb => s.memRead_memWrite_other v hb, Memory.wf_write h a v, rfl⟩

theorem State.overflowFlag_of_le {s : State} (h : s.acc ≤ 0xFFFF) : s.overflowFlag = s :=
  if_neg (Nat.not_lt.2 h)

theorem State.overflowFlag_of_gt {s : State} (h : 0xFFFF < s.acc) :
    s.overflowFlag = { s with sReg := .V, reports := s.reports ++ [.overflowWarning s.acc] } :=
  if_pos h

/-! ### The statements about the pulse -/

/-- Settles O6: the lookup that `decode` made is the one that dispatches the next pulse. -/
theorem stepRunsTheDecodedInstruction : Obligations.StepRunsTheDecodedInstruction := by
  intro s hrun
  have dispatch : ∀ (t : State) (i : Instr), t.halted = false → t.step ≠ 0 →
      t.opcodeMap.lookup t.ir = some i → step t = mapNext State.finishPulse (exec i t.tick) := by
    intro t i hrun h0 hl
    obtain ⟨u, hu⟩ := exec_isNext i t.tick
    rw [step_handler hrun h0 hl hu, hu, mapNext]
  refine ⟨fun i h0 hl => dispatch s i hrun h0 hl, fun c rest h0 hdec => ?_⟩
  obtain ⟨v, hl, -, hcells⟩ := decode_eq_ok_iff.1 hdec
  obtain ⟨hstep, -, hir⟩ := State.tick_fetchPulse_of_step_zero h0
  refine ⟨_, step_fetch hrun h0, hrun, hstep, dispatch _ _ hrun (by rw [hstep]; decide) ?_⟩
  rw [hir, (List.cons.inj hcells).1]
  exact hl

/-- Settles O7: the fetch pulse is `tick` and `fetchPulse`, one record update each. -/
theorem fetchPulseReadsTheOpcode : Obligations.FetchPulseReadsTheOpcode := by
  intro s hrun h0
  rw [step_fetch hrun h0, State.fetchPulse_eq, s.irqAt_one]
  simp [State.tick, State.fetch, State.setPc, State.setIr, State.snapshot, State.memRead,
    State.fetchAddr, h0]

/-- Settles O9: the illegal-opcode path and the end of the pulse, one record update each. -/
theorem illegalOpcodePulseHalts : Obligations.IllegalOpcodePulseHalts := by
  intro s hrun h0 hl hop
  rw [step_illegal hrun h0 hl, State.illegalOpcode_eq, State.finishPulse_eq, s.irqAt_one]
  simp [State.tick, State.snapshot, hop]

/-- Settles O10: the fetch pulse leaves the value that selects no row in `ir`, and the next pulse
detects it. -/
theorem illegalInstructionTakesTwoPulses : Obligations.IllegalInstructionTakesTwoPulses := by
  intro s ⟨hrun, h0, hb1, hb2, hop, _⟩ hrow
  have hfetch := step_fetch hrun h0
  obtain ⟨hstep, hpc, hir⟩ := State.tick_fetchPulse_of_step_zero h0
  have hpulse := illegalOpcodePulseHalts s.tick.fetchPulse hrun (by rw [hstep]; decide)
    (by rw [hir]; exact hrow) hop
  have hrun1 : runPulses 1 s = .next s.tick.fetchPulse := runPulses_succ_of_step rfl hfetch
  exact ⟨⟨_, hrun1, hrun, rfl⟩, _, runPulses_succ_of_step hrun1 hpulse, rfl, rfl,
    congrArg (· + 1) hstep, hir, hpc, hb1, hb2,
    congrArg (fun v => s.reports ++ [Report.illegalOpcode v]) hir, rfl, rfl, rfl⟩

/-- Settles O14: outside its range every handler takes its schedule's last branch. -/
theorem stepRangeErrorOnlyReports : Obligations.StepRangeErrorOnlyReports :=
  fun _ _ hr => exec_stepRangeError hr

/-- Settles O16: it is the report of the missing input, by definition. -/
theorem missingDecodeInputOnlyReports : Obligations.MissingDecodeInputOnlyReports :=
  fun _ => rfl

/-- Settles O17: the copy step of each row's register schedule. -/
theorem registerCopyPulses : Obligations.RegisterCopyPulses := by
  intro s h2
  rw [exec_txa, exec_tya, exec_tax, exec_tay, exec_sys]
  exact ⟨regSchedule_copy h2, regSchedule_copy h2, regSchedule_copy h2, regSchedule_copy h2,
    regSchedule_copy h2⟩

/-- Settles O18: every immediate row decodes in step 2. -/
theorem immediateDecodePulse : Obligations.ImmediateDecodePulse :=
  fun _ _ hf h2 => exec_decodeImm hf h2

/-- Settles O19: every row with an address decodes in steps 2 and 3, by what is latched. -/
theorem addressDecodePulses : Obligations.AddressDecodePulses := by
  intro i s hf h23
  rw [exec_decodeAbs hf h23]
  exact ⟨fun hb => by rw [s.decodeAbs_first hb], fun lo hb => by rw [s.decodeAbs_second hb]⟩

/-- Settles O20: the check of the row's schedule. -/
theorem lastPulseIsTheInterruptCheck : Obligations.LastPulseIsTheInterruptCheck := by
  intro i s hb hN
  rw [exec_interruptCheck hb hN, State.interruptCheck_eq]

/-! ### The statements about the instructions -/

/-- Settles O21: the action of the immediate schedule, on the latched operand. -/
theorem loadImmediateActions : Obligations.LoadImmediateActions := by
  intro s k h3 hk
  rw [exec_ldaImm, exec_ldxImm, exec_ldyImm, immSchedule_action h3, immSchedule_action h3,
    immSchedule_action h3, State.operand_eq hk]
  exact ⟨rfl, rfl, rfl⟩

/-- Settles O22: the action of the address schedule, on the cell at `sp`. -/
theorem loadMemoryActions : Obligations.LoadMemoryActions := by
  intro s h4
  rw [exec_lda, exec_ldx, exec_ldy]
  exact ⟨absSchedule_action h4, absSchedule_action h4, absSchedule_action h4⟩

/-- Settles O23: STA's action is the write that `memWrite_spec` describes. -/
theorem storeActionWritesTheAddressedCell : Obligations.StoreActionWritesTheAddressedCell := by
  intro s hwf h4
  rw [exec_sta]
  exact ⟨_, absSchedule_action h4, State.memWrite_spec hwf s.sp s.acc⟩

/-- Settles O24: the action of the register schedule, on the latched value. -/
theorem transferActions : Obligations.TransferActions := by
  intro s v h3 hv
  rw [exec_txa, exec_tya, exec_tax, exec_tay, regSchedule_action h3, regSchedule_action h3,
    regSchedule_action h3, regSchedule_action h3, State.operand_eq hv]
  exact ⟨rfl, rfl, rfl, rfl⟩

/-- Settles O25: the flag rule compares the sum, which the action has put in `acc`. -/
theorem addActionSetsOverflowAboveTheLimit : Obligations.AddActionSetsOverflowAboveTheLimit := by
  intro s h4
  rw [exec_adc, absSchedule_action h4]
  exact ⟨fun hle => by rw [State.overflowFlag_of_le hle]; rfl,
    fun hgt => by rw [State.overflowFlag_of_gt hgt]; rfl⟩

/-- Settles O26, by the two cases of the compare's flag rule. -/
theorem compareActionSetsZeroOnEquality : Obligations.CompareActionSetsZeroOnEquality := by
  intro s h4
  rw [exec_cpx, absSchedule_action h4]
  exact ⟨fun heq => by simp [State.compareFlag, heq, State.assertFlag],
    fun hne => by simp [State.compareFlag, hne]⟩

/-- Settles O27: the three actions of INC's schedule, the last being the write of `memWrite_spec`. -/
theorem incrementActions : Obligations.IncrementActions := by
  intro s
  rw [exec_inc]
  exact ⟨rmwSchedule_read, rmwSchedule_modify,
    fun hwf h6 => ⟨_, rmwSchedule_write h6, State.memWrite_spec hwf s.sp s.acc⟩⟩

/-- Settles O28: the two steps of NOP's schedule. -/
theorem nopOnlyChecksForInterrupts : Obligations.NopOnlyChecksForInterrupts :=
  fun s => ⟨fun h2 => (exec_nop s).trans (impSchedule_idle h2),
    fun h3 => lastPulseIsTheInterruptCheck .nop _ nofun h3⟩

/-- BRK's last action: the break flag, which overwrites what the interrupt check wrote. -/
theorem exec_brk_last {s : State} (h3 : s.step = 3) :
    exec .brk s = .next { s with sReg := .B, opComplete := true } := by
  rw [exec_brk, impSchedule_last h3]
  rfl

/-- Settles O29: the two steps of BRK's schedule, and the pulse around the second. -/
theorem breakHaltsOnItsThirdPulse : Obligations.BreakHaltsOnItsThirdPulse := by
  intro s
  refine ⟨fun h2 => (exec_brk s).trans (impSchedule_idle h2), exec_brk_last, fun hrun h2 hl => ?_⟩
  have hexec := exec_brk_last (s := s.tick) (by rw [State.tick_step, h2])
  refine ⟨_, step_handler hrun (by rw [h2]; decide) hl hexec, ?_⟩
  obtain ⟨hhalt, hshut, -⟩ :=
    State.finishPulse_of_break (s := { s.tick with sReg := .B, opComplete := true }) rfl
  exact ⟨hhalt, State.finishPulse_sReg _, (State.finishPulse_completed rfl).1, State.finishPulse_pc _, hshut,
    State.finishPulse_reports _⟩

/-- Settles O30, by the two cases of the branch test. -/
theorem branchActionMovesBackUnlessZero : Obligations.BranchActionMovesBackUnlessZero := by
  intro s k h3 hk
  rw [exec_bne, immSchedule_action h3, State.operand_eq hk]
  exact ⟨fun hZ => by simp [State.branchTaken, hZ], fun hne => by simp [State.branchTaken, hne]; rfl⟩

/-- Settles O31, by the three cases of SYS's action. -/
theorem systemCallActions : Obligations.SystemCallActions := by
  intro s k h3 hk
  rw [exec_sys, regSchedule_action h3, State.sysCall_eq, State.operand_eq hk]
  exact ⟨fun h1 => by simp [h1], fun h2 => by simp [h2], fun h1 h2 => by simp [h1, h2]⟩

end Sys2Proof.Machine
end

section
/-! PROOF. The invariants of every pulse (spec/10_state.md rule R34, spec/40_pipeline.md rules R105, R109,
R110): each holds after every launch and is kept by every step. -/

namespace Sys2Proof.Machine

open Sys2Proof

/-! ### Completion -/

/-- Before its last step a handler does not complete the instruction. -/
theorem HandlerPulse.opComplete_of_lt {i : Instr} {s t : State} (h : HandlerPulse i s t)
    (hlt : s.step < stepCount i) : t.opComplete = s.opComplete := by
  cases h with
  | lastCheck hN => omega
  | breakNow h3 => simp [h3, stepCount] at hlt
  | add => rw [State.overflowFlag_eq, State.setAcc_opComplete]
  | compare => rw [State.compareFlag_eq]
  | sysCall => rw [State.sysCall_eq]
  | branch => rw [State.branch_eq]
  | decodeAbs => rw [State.decodeAbs_eq]
  | _ => rfl

/-- The last step of every row completes the instruction. -/
theorem exec_last_completes {i : Instr} {s t : State} (h : exec i s = .next t)
    (hN : s.step = stepCount i) : t.opComplete = true := by
  by_cases hb : i = .brk
  · subst hb
    rw [exec_brk_last hN] at h
    cases h
    rfl
  · rw [exec_interruptCheck hb hN] at h
    cases h
    rfl

/-! ### What a pulse leaves of the pipeline state -/

/-- The pulse ends within the instruction: `t` is at the step that the pulse counted, with the latch and
`sp` of the state `u` that the handler left. -/
structure State.Continues (i : Instr) (s u t : State) : Prop where
  row        : s.opcodeMap.lookup s.ir = some i
  started    : s.step ≠ 0
  incomplete : s.step + 1 < stepCount i
  exec_eq    : exec i s.tick = .next u
  row_after  : t.opcodeMap.lookup t.ir = some i
  step       : t.step = s.step + 1
  latch1     : t.decodedByte1 = u.decodedByte1
  latch2     : t.decodedByte2 = u.decodedByte2
  sp         : t.sp = u.sp
  opComplete : t.opComplete = false

/-- A running machine that keeps the pipeline invariants halts, fetches, completes its instruction or
goes on with it. -/
theorem step_pipeline_cases {s t : State} (hp : s.pipelineOk) (h : step s = .next t) :
    t.halted = true ∨ (s.step = 0 ∧ t = s.tick.fetchPulse) ∨
      (t.step = 0 ∧ t.decodedByte1 = none ∧ t.decodedByte2 = none ∧ t.opComplete = false) ∨
      ∃ i u, State.Continues i s u t := by
  obtain ⟨hrun, hkind⟩ := step_cases h
  obtain ⟨-, -, hrange, hop⟩ := hp.resolve_left (by simp [hrun])
  obtain ⟨h0, rfl⟩ | ⟨-, -, rfl⟩ | ⟨i, u, h0, hl, hu, rfl⟩ := hkind
  · exact .inr (.inl ⟨h0, rfl⟩)
  · exact .inl (State.finishPulse_of_break rfl).1
  simp only [hl] at hrange
  have hpulse := exec_cases hu
  have hc := hpulse.sameControl
  have h3 := three_le_stepCount i
  by_cases hN : s.tick.step = stepCount i
  · exact .inr (.inr (.inl (State.finishPulse_completed (exec_last_completes hu hN))))
  have hlt : s.step + 1 < stepCount i := by
    rw [State.tick_step] at hN
    omega
  have hopu : u.opComplete = false := (hpulse.opComplete_of_lt hlt).trans hop
  exact .inr (.inr (.inr ⟨i, u, {
    row := hl
    started := h0
    incomplete := hlt
    exec_eq := hu
    row_after := by rw [State.finishPulse_opcodeMap, State.finishPulse_ir, hc.opcodeMap, hc.ir]; exact hl
    step := by simp [State.finishPulse_eq, hopu, hc.step]
    latch1 := by simp [State.finishPulse_eq, hopu]
    latch2 := by simp [State.finishPulse_eq, hopu]
    sp := u.finishPulse_sp
    opComplete := by simp [State.finishPulse_eq] }⟩))

/-! ### The operand latch -/

/-- No handler fills the second byte of the latch before the first. -/
theorem HandlerPulse.latch_order {i : Instr} {s t : State} (h : HandlerPulse i s t)
    (hs : s.decodedByte2 ≠ none → s.decodedByte1 ≠ none) :
    t.decodedByte2 ≠ none → t.decodedByte1 ≠ none := by
  cases h with
  | decodeImm => simp [State.decodeImm_eq]
  | decodeReg => simp [State.latch1]
  | decodeAbs => simp [State.decodeAbs_eq]
  | add => rwa [State.overflowFlag_eq, State.setAcc_decodedByte1, State.setAcc_decodedByte2]
  | compare => rwa [State.compareFlag_eq]
  | sysCall => rwa [State.sysCall_eq]
  | branch => rwa [State.branch_eq]
  | _ => exact hs

/-- Past the decode steps of its format no handler touches the operand latch or `sp`. -/
theorem HandlerPulse.latch_of_late {i : Instr} {s t : State} (h : HandlerPulse i s t) (h3 : 3 ≤ s.step)
    (h4 : i.format = .abs → 4 ≤ s.step) :
    t.decodedByte1 = s.decodedByte1 ∧ t.decodedByte2 = s.decodedByte2 ∧ t.sp = s.sp := by
  cases h with
  | decodeAbs hf h23 =>
    have := h4 hf
    omega
  | decodeImm | decodeReg | idle => omega
  | add => simp [State.overflowFlag_eq]
  | compare => simp [State.compareFlag_eq]
  | sysCall => simp [State.sysCall_eq]
  | branch => simp [State.branch_eq]
  | _ => exact ⟨rfl, rfl, rfl⟩

/-- The operand latch and `sp` as they are after step `k` of an instruction of row `i`: what `latchOk`
asks of a running machine. -/
def State.Latched (i : Instr) (k : Nat) (s : State) : Prop :=
  (∀ hi, s.decodedByte2 = some hi → ∃ lo, s.decodedByte1 = some lo ∧ s.sp = compose lo hi) ∧
    (2 ≤ k → i.format ≠ .imp → s.decodedByte1 ≠ none) ∧ (3 ≤ k → i.format = .abs → s.decodedByte2 ≠ none)

/-- Step 2 latches a first byte, unless the format has nothing to decode, and no second one. -/
theorem HandlerPulse.latch_of_step_two {i : Instr} {s t : State} (h : HandlerPulse i s t)
    (h2 : s.step = 2) (hb1 : s.decodedByte1 = none) (hb2 : s.decodedByte2 = none) :
    (i.format ≠ .imp → t.decodedByte1 ≠ none) ∧ t.decodedByte2 = none := by
  have h3 := three_le_stepCount i
  cases h with
  | decodeReg => exact ⟨nofun, hb2⟩
  | decodeImm => exact ⟨nofun, hb2⟩
  | decodeAbs => rw [s.decodeAbs_first hb1]; exact ⟨nofun, hb2⟩
  | idle hf => exact ⟨fun hne => absurd hf hne, hb2⟩
  | _ => omega

/-- The handler of step `k + 1` fills the latch as far as its step says, on top of what step `k` left. -/
theorem exec_latched {i : Instr} {k : Nat} {s t : State} (h : exec i s = .next t)
    (hk : s.step = k + 1) (h0 : k ≠ 0) (hs : s.Latched i k)
    (hempty : k ≤ 1 → s.decodedByte1 = none ∧ s.decodedByte2 = none) : t.Latched i (k + 1) := by
  obtain ⟨hsp, hl1, hl2⟩ := hs
  by_cases hk1 : k = 1
  · obtain ⟨hb1, hb2⟩ := hempty (by omega)
    obtain ⟨ht1, ht2⟩ := (exec_cases h).latch_of_step_two (by omega) hb1 hb2
    exact ⟨by simp [ht2], fun _ => ht1, by omega⟩
  by_cases hsecond : i.format = .abs ∧ k = 2
  · obtain ⟨hf, rfl⟩ := hsecond
    obtain ⟨lo, hlo⟩ := Option.ne_none_iff_exists'.1 (hl1 (by omega) (by simp [hf]))
    rw [exec_decodeAbs hf (.inr hk), s.decodeAbs_second hlo] at h
    cases h
    exact ⟨fun hi h => ⟨lo, hlo, by cases h; rfl⟩, fun _ _ => by simp [hlo], nofun⟩
  · have hlate : i.format = .abs → k ≠ 2 := not_and.1 hsecond
    obtain ⟨ht1, ht2, htsp⟩ := (exec_cases h).latch_of_late (by omega) fun hf => by
      have := hlate hf
      omega
    rw [State.Latched, ht1, ht2, htsp]
    refine ⟨hsp, fun _ => hl1 (by omega), fun _ hf => hl2 ?_ hf⟩
    have := hlate hf
    omega

/-! ### The invariants of a running machine -/

/-- `latchOk` of a running machine whose `ir` selects a row. -/
theorem State.latchOk_iff {s : State} {i : Instr} (hrun : s.halted = false)
    (hl : s.opcodeMap.lookup s.ir = some i) : s.latchOk ↔ s.Latched i s.step := by
  cases h1 : s.decodedByte1 <;> cases h2 : s.decodedByte2 <;>
    simp [State.latchOk, State.Latched, hrun, hl, h1, h2]

/-- With an empty latch the latch condition asks nothing before step 2. -/
theorem State.latchOk_of_empty {s : State} (hb1 : s.decodedByte1 = none) (hb2 : s.decodedByte2 = none)
    (hstep : s.step ≤ 1) : s.latchOk := by
  refine .inr ⟨by simp [hb1, hb2], ?_⟩
  split
  · exact ⟨by omega, by omega⟩
  · trivial

/-- Steps 0 and 1 are within the range of every row and of an illegal opcode. -/
theorem State.pipelineOk_of_empty {s : State} (hb1 : s.decodedByte1 = none)
    (hb2 : s.decodedByte2 = none) (hop : s.opComplete = false) (hstep : s.step ≤ 1) : s.pipelineOk := by
  refine .inr ⟨fun _ => ⟨hb1, hb2⟩, fun hne => absurd hb2 hne, ?_, hop⟩
  split
  case h_1 i _ =>
    have h3 := three_le_stepCount i
    omega
  case h_2 => exact hstep

/-! ### The statements -/

/-- Settles O47, by the ways a pulse can end. -/
theorem everyPulseKeepsThePipelineInvariants : Obligations.EveryPulseKeepsThePipelineInvariants := by
  intro s t hp h
  obtain ⟨hempty, horder, -, hop⟩ := hp.resolve_left (by simp [(step_cases h).1])
  obtain hhalt | ⟨h0, rfl⟩ | ⟨h0, hb1, hb2, hop⟩ | ⟨i, u, hc⟩ := step_pipeline_cases hp h
  · exact .inl hhalt
  · obtain ⟨hb1, hb2⟩ := hempty (by omega)
    exact State.pipelineOk_of_empty hb1 hb2 hop (State.tick_fetchPulse_of_step_zero h0).1.le
  · exact State.pipelineOk_of_empty hb1 hb2 hop (by omega)
  · have hstarted := hc.started
    have hlt := hc.incomplete
    refine .inr ⟨?_, ?_, ?_, hc.opComplete⟩
    · rw [hc.step]
      omega
    · rw [hc.latch1, hc.latch2]
      exact (exec_cases hc.exec_eq).latch_order horder
    · simp only [hc.row_after, hc.step]
      omega

/-- Settles O48: a fetch finds and leaves the latch empty, completion empties it, and every other pulse
fills it as `exec_latched` says. -/
theorem everyPulseKeepsTheOperandLatch : Obligations.EveryPulseKeepsTheOperandLatch := by
  intro s t hp hlatch h
  have hrun := (step_cases h).1
  obtain ⟨hempty, -, -, -⟩ := hp.resolve_left (by simp [hrun])
  by_cases hhalt : t.halted = true
  · exact .inl hhalt
  obtain hhalt' | ⟨h0, rfl⟩ | ⟨h0, hb1, hb2, -⟩ | ⟨i, u, hc⟩ := step_pipeline_cases hp h
  · exact absurd hhalt' hhalt
  · obtain ⟨hb1, hb2⟩ := hempty (by omega)
    exact State.latchOk_of_empty hb1 hb2 (State.tick_fetchPulse_of_step_zero h0).1.le
  · exact State.latchOk_of_empty hb1 hb2 (by omega)
  · have hs : s.tick.Latched i s.step := (State.latchOk_iff hrun hc.row).1 hlatch
    rw [State.latchOk_iff (by simpa using hhalt) hc.row_after, hc.step, State.Latched, hc.latch1,
      hc.latch2, hc.sp]
    exact exec_latched hc.exec_eq rfl hc.started hs hempty

/-- Settles O46: the store is left alone or written by `Memory.write`. -/
theorem everyPulseKeepsTheStoreCanonical : Obligations.EveryPulseKeepsTheStoreCanonical := by
  intro s t hwf h
  obtain ⟨-, ⟨-, rfl⟩ | ⟨-, -, rfl⟩ | ⟨i, u, -, -, hu, rfl⟩⟩ := step_cases h
  · exact hwf
  · rw [State.finishPulse_mem]
    exact hwf
  · rw [State.finishPulse_mem]
    rcases (exec_cases hu).mem with hsame | ⟨-, hwrite⟩
    · rwa [hsame]
    · rw [hwrite]
      exact Memory.wf_write hwf _ _

/-- Settles O49: a pulse appends the entry of its own number. -/
theorem everyPulseKeepsTheTraceLaw : Obligations.EveryPulseKeepsTheTraceLaw := by
  intro s t hlaw h
  obtain ⟨e, htrace, he⟩ := step_trace h
  have hcycle : t.cycle = s.cycle + 1 := (step_sameHost h).cycle
  rw [State.traceOk, htrace, List.map_append, hlaw, hcycle, List.range'_concat]
  simp [he, Nat.add_comm]

/-- Settles O50: the halt check of a running machine, by the flag the pulse leaves. -/
theorem everyPulseKeepsTheHaltLaw : Obligations.EveryPulseKeepsTheHaltLaw := by
  intro s t hlaw h
  obtain ⟨-, hB, hshut⟩ := hlaw.resolve_left fun hh => by simp [(step_cases h).1] at hh
  obtain ⟨hfetch, hflag, hnoFlag, hsources, -⟩ := haltCheckSendsTheShutdownRequest s t h
  by_cases htB : t.sReg = .B
  · obtain ⟨hhalt, hone, -⟩ := hflag (hsources hB htB).1 htB
    exact .inl ⟨hhalt, htB, by rw [hone, hshut]; rfl⟩
  · obtain ⟨hrun, hnone, -⟩ : t.halted = false ∧ t.shutdown = s.shutdown ∧ _ :=
      if h0 : s.step = 0 then hfetch h0 else hnoFlag h0 htB
    exact .inr ⟨hrun, htB, hnone.trans hshut⟩

/-- Settles O51: the machine that halted has the break flag by the halt law, and the pulse set it. -/
theorem onlyBreakAndIllegalOpcodesHalt : Obligations.OnlyBreakAndIllegalOpcodesHalt := by
  intro s t hlaw h hhalt
  obtain ⟨-, hB, -⟩ := hlaw.resolve_left fun hh => by simp [(step_cases h).1] at hh
  have htB : t.sReg = .B := by
    rcases everyPulseKeepsTheHaltLaw s t hlaw h with ⟨-, htB, -⟩ | ⟨hrun, -, -⟩
    · exact htB
    · simp [hhalt] at hrun
  obtain ⟨-, -, -, hsources, -⟩ := haltCheckSendsTheShutdownRequest s t h
  exact hsources hB htB

/-- Settles O52: a launch empties the latch at step 0, before any pulse, trace entry or request. -/
theorem launchMeetsTheInvariants : Obligations.LaunchMeetsTheInvariants :=
  fun _ hwf => ⟨⟨rfl, rfl, rfl, rfl, rfl, nofun⟩, hwf, State.pipelineOk_of_empty rfl rfl rfl (Nat.zero_le 1),
    State.latchOk_of_empty rfl rfl (Nat.zero_le 1), rfl, .inr ⟨rfl, nofun, rfl⟩⟩

/-- Settles O53: both are the fields of `State.launch` and `Launch.default` as they stand. -/
theorem launchAndResetValues : Obligations.LaunchAndResetValues := by
  refine ⟨fun l => ?_, ?_⟩
  · simp [State.launch]
  · simp [State.reset, State.launch, Launch.default]

end Sys2Proof.Machine
end

section
/-! PROOF. What cannot influence what (rules R29, R36, R37, R103, R194): the operation that a handler
performs depends on its row and step alone, and only a few operations see the flag register, the interrupt
answer or an output. -/

namespace Sys2Proof.Machine

open Sys2Proof

/-! ### The operations of the handlers -/

/-- `s` with the outputs of `r`. -/
def State.withOutputs (s r : State) : State :=
  { s with
    trace := r.trace, console := r.console, reports := r.reports, shutdown := r.shutdown,
    traceDumps := r.traceDumps }

/-- `s` with the outputs, the flag register and the interrupt answer of `r`. -/
def State.maskedBy (s r : State) : State :=
  { s.withOutputs r with sReg := r.sReg, irqPending := r.irqPending }

/-- The operation neither reads nor writes an output, the flag register or the interrupt answer. -/
def Blind (f : State → State) : Prop := ∀ s r : State, f (s.maskedBy r) = (f s).maskedBy r

theorem Blind.decodeAbs : Blind State.decodeAbs := by
  intro s r
  rw [State.decodeAbs_eq, State.decodeAbs_eq]
  rfl

/-- The operation of row `i` at step `n`, as far as it sees more than a blind one does. -/
inductive HandlerOp : Instr → Nat → (State → State) → Prop
  | blind {i n f} (hf : Blind f) (hn : n ≠ stepCount i) : HandlerOp i n f
  | stepRange {i n} (hn : n ≠ stepCount i) : HandlerOp i n State.stepRangeError
  | lastCheck {i} (hb : i ≠ .brk) : HandlerOp i (stepCount i) State.interruptCheck
  | breakNow : HandlerOp .brk 3 (fun s => s.interruptCheck.assertFlag .B)
  | add : HandlerOp .adc 4 (fun s => (s.setAcc (s.acc + s.memRead s.sp)).overflowFlag)
  | compare : HandlerOp .cpx 4 (fun s => s.compareFlag (s.memRead s.sp))
  | branch : HandlerOp .bne 3 (fun s => if s.branchTaken then s.setPc (branchTarget s.pc s.operand) else s)
  | sysCall : HandlerOp .sys 3 State.sysCall

/-- The handler of row `i` performs one operation of `HandlerOp` at step `n`, whatever the state. -/
def HasOp (i : Instr) (n : Nat) : Prop :=
  ∃ f, HandlerOp i n f ∧ ∀ s : State, s.step = n → exec i s = .next (f s)

section
variable {i : Instr} {n : Nat} {source : State → Nat} {action : State → State}

theorem HasOp.of_imp (hi : ∀ s, exec i s = impSchedule action s) (hN : stepCount i = 3) (h2 : 2 ≤ n)
    (hlt : n < stepCount i) : HasOp i n := by
  obtain rfl : n = 2 := by omega
  exact ⟨fun s => s, .blind (fun _ _ => rfl) hlt.ne, fun s h => (hi s).trans (impSchedule_idle h)⟩

theorem HasOp.of_reg (hi : ∀ s, exec i s = regSchedule source action s) (hN : stepCount i = 4)
    (hs : ∀ s r, source (s.maskedBy r) = source s) (ha : HandlerOp i 3 action) (h2 : 2 ≤ n)
    (hlt : n < stepCount i) : HasOp i n := by
  obtain rfl | rfl : n = 2 ∨ n = 3 := by omega
  · exact ⟨_, .blind (fun s r => by rw [hs]; rfl) hlt.ne, fun s h => (hi s).trans (regSchedule_copy h)⟩
  · exact ⟨_, ha, fun s h => (hi s).trans (regSchedule_action h)⟩

theorem HasOp.of_imm (hi : ∀ s, exec i s = immSchedule action s) (hN : stepCount i = 4)
    (ha : HandlerOp i 3 action) (h2 : 2 ≤ n) (hlt : n < stepCount i) : HasOp i n := by
  obtain rfl | rfl : n = 2 ∨ n = 3 := by omega
  · exact ⟨_, .blind (fun _ _ => rfl) hlt.ne, fun s h => (hi s).trans (immSchedule_decode h)⟩
  · exact ⟨_, ha, fun s h => (hi s).trans (immSchedule_action h)⟩

theorem HasOp.of_abs (hi : ∀ s, exec i s = absSchedule action s) (hN : stepCount i = 5)
    (ha : HandlerOp i 4 action) (h2 : 2 ≤ n) (hlt : n < stepCount i) : HasOp i n := by
  obtain h23 | rfl : (n = 2 ∨ n = 3) ∨ n = 4 := by omega
  · exact ⟨_, .blind .decodeAbs hlt.ne, fun s h => (hi s).trans (absSchedule_decode (h ▸ h23))⟩
  · exact ⟨_, ha, fun s h => (hi s).trans (absSchedule_action h)⟩

theorem HasOp.of_inc (h2 : 2 ≤ n) (hlt : n < stepCount .inc) : HasOp .inc n := by
  have h7 : n < 7 := hlt
  obtain h23 | rfl | rfl | rfl : (n = 2 ∨ n = 3) ∨ n = 4 ∨ n = 5 ∨ n = 6 := by omega
  · exact ⟨_, .blind .decodeAbs hlt.ne, fun s h => (exec_inc s).trans (rmwSchedule_decode (h ▸ h23))⟩
  · exact ⟨_, .blind (fun _ _ => rfl) hlt.ne, fun s h => (exec_inc s).trans (rmwSchedule_read h)⟩
  · exact ⟨_, .blind (fun _ _ => rfl) hlt.ne, fun s h => (exec_inc s).trans (rmwSchedule_modify h)⟩
  · exact ⟨_, .blind (fun _ _ => rfl) hlt.ne, fun s h => (exec_inc s).trans (rmwSchedule_write h)⟩

end

theorem exec_hasOp (i : Instr) (n : Nat) : HasOp i n := by
  by_cases hr : n < 2 ∨ stepCount i < n
  · have h3 := three_le_stepCount i
    exact ⟨_, .stepRange (by omega), fun s h => exec_stepRangeError (h ▸ hr)⟩
  by_cases hN : n = stepCount i
  · subst hN
    by_cases hb : i = .brk
    · subst hb
      exact ⟨_, .breakNow, fun s h => (exec_brk s).trans (impSchedule_last h)⟩
    · exact ⟨_, .lastCheck hb, fun s h => exec_interruptCheck hb h⟩
  have h2 : 2 ≤ n := by omega
  have hlt : n < stepCount i := by omega
  cases i with
  | ldaImm => exact .of_imm exec_ldaImm rfl (.blind (fun _ _ => rfl) nofun) h2 hlt
  | lda => exact .of_abs exec_lda rfl (.blind (fun _ _ => rfl) nofun) h2 hlt
  | sta => exact .of_abs exec_sta rfl (.blind (fun _ _ => rfl) nofun) h2 hlt
  | txa => exact .of_reg exec_txa rfl (fun _ _ => rfl) (.blind (fun _ _ => rfl) nofun) h2 hlt
  | tya => exact .of_reg exec_tya rfl (fun _ _ => rfl) (.blind (fun _ _ => rfl) nofun) h2 hlt
  | adc => exact .of_abs exec_adc rfl .add h2 hlt
  | ldxImm => exact .of_imm exec_ldxImm rfl (.blind (fun _ _ => rfl) nofun) h2 hlt
  | ldx => exact .of_abs exec_ldx rfl (.blind (fun _ _ => rfl) nofun) h2 hlt
  | tax => exact .of_reg exec_tax rfl (fun _ _ => rfl) (.blind (fun _ _ => rfl) nofun) h2 hlt
  | ldyImm => exact .of_imm exec_ldyImm rfl (.blind (fun _ _ => rfl) nofun) h2 hlt
  | ldy => exact .of_abs exec_ldy rfl (.blind (fun _ _ => rfl) nofun) h2 hlt
  | tay => exact .of_reg exec_tay rfl (fun _ _ => rfl) (.blind (fun _ _ => rfl) nofun) h2 hlt
  | nop => exact .of_imp exec_nop rfl h2 hlt
  | brk => exact .of_imp exec_brk rfl h2 hlt
  | cpx => exact .of_abs exec_cpx rfl .compare h2 hlt
  | bne => exact .of_imm exec_bne rfl .branch h2 hlt
  | sys => exact .of_reg exec_sys rfl (fun _ _ => rfl) .sysCall h2 hlt
  | inc => exact .of_inc h2 hlt

/-- Two pulses of one handler at the same step perform the same operation. -/
theorem exec_same_op {i : Instr} {s s' t t' : State} (h : exec i s = .next t)
    (h' : exec i s' = .next t') (hstep : s'.step = s.step) :
    ∃ f, HandlerOp i s.step f ∧ t = f s ∧ t' = f s' := by
  obtain ⟨f, hop, hf⟩ := exec_hasOp i s.step
  rw [hf s rfl] at h
  rw [hf s' hstep] at h'
  cases h
  cases h'
  exact ⟨f, hop, rfl, rfl⟩

/-- On states that differ only in what a blind operation does not see, so do its next states. -/
theorem Blind.apply {f : State → State} (hf : Blind f) {s r : State} (h : r = s.maskedBy r) :
    f r = (f s).maskedBy r := by
  rw [← hf, ← h]

/-- A blind operation leaves what it does not see as it was. -/
theorem Blind.eq_maskedBy {f : State → State} (hf : Blind f) (s : State) : f s = (f s).maskedBy s :=
  hf s s

/-! ### Outputs -/

theorem State.eq_withOutputs {s t : State} (h : s.withoutOutputs = t.withoutOutputs) :
    t = s.withOutputs t := by
  cases s
  cases t
  simpa [State.withoutOutputs, State.withOutputs, eq_comm] using h

/-- No operation of a handler reads an output. -/
theorem HandlerOp.withoutOutputs {i : Instr} {n : Nat} {f : State → State} (h : HandlerOp i n f)
    (s r : State) : (f s).withoutOutputs = (f (s.withOutputs r)).withoutOutputs := by
  cases h with
  | blind hf =>
    have hother : f (s.withOutputs r) = (f s).maskedBy (s.withOutputs r) := hf.apply rfl
    rw [hother, hf.eq_maskedBy s]
    rfl
  | add => beta_reduce; rw [State.overflowFlag_eq, State.overflowFlag_eq]; rfl
  | compare => beta_reduce; rw [State.compareFlag_eq, State.compareFlag_eq]; rfl
  | branch => beta_reduce; rw [State.branch_eq, State.branch_eq]; rfl
  | sysCall => rw [State.sysCall_eq, State.sysCall_eq]; rfl
  | _ => rfl

/-- Nor does the end of a pulse. -/
theorem State.finishPulse_withoutOutputs (s r : State) :
    s.finishPulse.withoutOutputs = (s.withOutputs r).finishPulse.withoutOutputs := by
  rw [State.finishPulse_eq, State.finishPulse_eq]
  rfl

/-- Settles O43: each kind of pulse on a state and on the same with other outputs. -/
theorem outputsAreNeverRead : Obligations.OutputsAreNeverRead := by
  intro s₁ s₂ hsame
  obtain ⟨r, rfl⟩ : ∃ r, s₂ = s₁.withOutputs r := ⟨s₂, State.eq_withOutputs hsame⟩
  obtain ⟨henabled, hrefused⟩ := pulseIsEnabledExactlyWhenRunning s₁
  refine ⟨fun t₁ h => ?next, fun q h => ?refused⟩
  case next =>
    obtain ⟨hrun, ⟨h0, rfl⟩ | ⟨h0, hl, rfl⟩ | ⟨i, u, h0, hl, hu, rfl⟩⟩ := step_cases h
    · exact ⟨_, step_fetch hrun h0, rfl⟩
    · exact ⟨_, step_illegal hrun h0 hl, State.finishPulse_withoutOutputs s₁.tick.illegalOpcode _⟩
    · obtain ⟨v, hv⟩ := exec_isNext i (s₁.tick.withOutputs r)
      obtain ⟨f, hop, rfl, rfl⟩ := exec_same_op hu hv rfl
      refine ⟨_, step_handler hrun h0 hl hv, ?_⟩
      rw [State.eq_withOutputs (hop.withoutOutputs s₁.tick r)]
      exact State.finishPulse_withoutOutputs _ _
  case refused =>
    cases hrun : s₁.halted with
    | true =>
      rw [← h, hrefused hrun]
      exact (pulseIsEnabledExactlyWhenRunning _).2 hrun
    | false =>
      obtain ⟨t, ht⟩ := henabled hrun
      exact nomatch h.symm.trans ht

/-! ### The interrupt answer -/

/-- Of all operations, the interrupt check alone keeps what it reads of the answer. -/
theorem HandlerOp.irqPending {i : Instr} {n : Nat} {f : State → State} (h : HandlerOp i n f) (s : State) :
    f { s with irqPending := true } =
      { f s with
        irqPending := true
        sReg := if n = stepCount i ∧ i ≠ .brk then .I else (f s).sReg } := by
  cases h with
  | blind hf hN =>
    have hother : f { s with irqPending := true } = (f s).maskedBy { s with irqPending := true } :=
      hf.apply rfl
    rw [if_neg (fun h => hN h.1), hother, hf.eq_maskedBy s]
    rfl
  | stepRange hN => rw [if_neg (fun h => hN h.1)]; rfl
  | lastCheck hb => rw [if_pos ⟨rfl, hb⟩]; rfl
  | breakNow => rw [if_neg (fun h => h.2 rfl)]; rfl
  | add => rw [if_neg nofun]; beta_reduce; rw [State.overflowFlag_eq, State.overflowFlag_eq]; rfl
  | compare => rw [if_neg nofun]; beta_reduce; rw [State.compareFlag_eq, State.compareFlag_eq]; rfl
  | branch => rw [if_neg nofun]; beta_reduce; rw [State.branch_eq, State.branch_eq]; rfl
  | sysCall => rw [if_neg nofun, State.sysCall_eq, State.sysCall_eq]; rfl

/-- Settles O44: the two pulses perform the same operation, on two answers. -/
theorem interruptInputOnlySetsTheFlag : Obligations.InterruptInputOnlySetsTheFlag := by
  intro i s t u ht hu
  obtain ⟨f, hop, rfl, rfl⟩ := exec_same_op ht hu rfl
  exact hop.irqPending { s with irqPending := false }

/-! ### The flag register -/

/-- Of all operations, BNE's alone decides by the flag, and it writes `pc` alone. -/
theorem HandlerOp.sReg {i : Instr} {n : Nat} {f : State → State} (h : HandlerOp i n f) (s : State)
    (flag : Flag) :
    { f { s with sReg := flag } with sReg := .none, pc := 0 } = { f s with sReg := .none, pc := 0 } ∧
      (i ≠ .bne → (f { s with sReg := flag }).pc = (f s).pc) := by
  cases h with
  | blind hf =>
    have hother : f { s with sReg := flag } = (f s).maskedBy { s with sReg := flag } := hf.apply rfl
    rw [hother, hf.eq_maskedBy s]
    exact ⟨rfl, fun _ => rfl⟩
  | add => beta_reduce; rw [State.overflowFlag_eq, State.overflowFlag_eq]; exact ⟨rfl, fun _ => rfl⟩
  | compare => beta_reduce; rw [State.compareFlag_eq, State.compareFlag_eq]; exact ⟨rfl, fun _ => rfl⟩
  | branch => beta_reduce; rw [State.branch_eq, State.branch_eq]; exact ⟨rfl, fun hne => absurd rfl hne⟩
  | sysCall => rw [State.sysCall_eq, State.sysCall_eq]; exact ⟨rfl, fun _ => rfl⟩
  | _ => exact ⟨rfl, fun _ => rfl⟩

/-- Settles O45: the two pulses perform the same operation, on two flags. -/
theorem onlyTheBranchReadsTheFlag : Obligations.OnlyTheBranchReadsTheFlag := by
  intro i s t u flag ht hu
  obtain ⟨f, hop, rfl, rfl⟩ := exec_same_op ht hu rfl
  exact hop.sReg s flag

end Sys2Proof.Machine
end

section
/-! PROOF. Whole instructions (spec/40_pipeline.md rules R107, R108; the instructions' own sections), from
an instruction boundary to the next. -/

namespace Sys2Proof.Machine

open Sys2Proof

/-! ### Runs of pulses -/

/-- The first pulse of a run, and the rest. -/
theorem runPulses_succ {n : Nat} {s t : State} (h : runPulses (n + 1) s = .next t) :
    ∃ u, step s = .next u ∧ runPulses n u = .next t := by
  rw [runPulses] at h
  cases hs : step s with
  | next u => exact ⟨u, rfl, by simpa [hs] using h⟩
  | fault r => simp [hs] at h
  | refused r => simp [hs] at h

/-- What a run of `k` pulses leaves of the host's side: `k` pulses counted, `k` answers used up. -/
theorem runPulses_host {k : Nat} {s t : State} (h : runPulses k s = .next t) :
    t.cycle = s.cycle + k ∧ t.opcodeMap = s.opcodeMap ∧ ∀ n, t.irqAt (n + 1) = s.irqAt (n + 1 + k) := by
  induction k generalizing s with
  | zero => cases h; exact ⟨rfl, rfl, fun _ => rfl⟩
  | succ k ih =>
    obtain ⟨u, hu, hrun⟩ := runPulses_succ h
    obtain ⟨hcycle, hmap, hirq⟩ := ih hrun
    have hhost := step_sameHost hu
    refine ⟨?_, hmap.trans hhost.opcodeMap, fun n => ?_⟩
    · rw [hcycle, hhost.cycle, State.tick_cycle]
      omega
    · rw [hirq, show n + 1 + k = n + k + 1 by omega, step_irqAt hu]
      congr 1
      omega

/-! ### The pulses of one instruction -/

/-- `t` is reached after `k` pulses of an instruction of row `i` that began in `s`. -/
structure State.Within (s : State) (i : Instr) (k : Nat) (t : State) : Prop where
  run      : runPulses k s = .next t
  underway : t.Underway i k

theorem State.Within.step_tick {s t : State} {i : Instr} {k : Nat} (h : s.Within i k t) :
    t.tick.step = k + 1 := by
  rw [State.tick_step, h.underway.step_eq]

theorem State.Within.fetch {s : State} {i : Instr} (h : s.atFetch) (hi : s.nextRow = some i) :
    s.Within i 1 s.tick.fetchPulse := by
  obtain ⟨hstep, hway⟩ := step_fetch_underway h hi
  exact ⟨runPulses_succ_of_step rfl hstep, hway⟩

/-- Every pulse before the last keeps within the instruction. -/
theorem State.Within.exists {s : State} {i : Instr} {k : Nat} (h : s.atFetch) (hi : s.nextRow = some i)
    (hk : k + 1 < stepCount i) : ∃ t, s.Within i (k + 1) t := by
  induction k with
  | zero => exact ⟨_, .fetch h hi⟩
  | succ k ih =>
    obtain ⟨t, ht⟩ := ih (by omega)
    obtain ⟨u, hu, hway⟩ := step_of_underway ht.underway
    exact ⟨u, runPulses_succ_of_step ht.run hu, hway hk⟩

/-- An instruction that neither completes nor breaks in a pulse only gets its trace entry. -/
theorem State.finishPulse_eq_traceAppend {s : State} (hop : s.opComplete = false) (hB : s.sReg ≠ .B) :
    s.finishPulse = s.traceAppend := by
  simp [State.finishPulse, State.completionReset, State.haltCheck, hop, hB]

theorem step_underway_of_exec {t u : State} {i : Instr} {k : Nat} (h : t.Underway i k)
    (hu : exec i t.tick = .next u) : step t = .next u.finishPulse :=
  step_handler h.running (h.step_eq ▸ h.started) h.row hu

/-- The next pulse of an instruction, unless it is the last. -/
theorem State.Within.next {s t u : State} {i : Instr} {k : Nat} (h : s.Within i k t)
    (hk : k + 1 < stepCount i) (hu : exec i t.tick = .next u) : s.Within i (k + 1) u.traceAppend := by
  obtain ⟨hop, hB⟩ := (exec_cases hu).before_last (by rw [h.step_tick]; exact hk) h.underway.noBreak
  have hstep := step_underway_of_exec h.underway hu
  rw [State.finishPulse_eq_traceAppend (hop.trans h.underway.incomplete) hB] at hstep
  obtain ⟨v, hv, hway⟩ := step_of_underway h.underway
  obtain rfl : u.traceAppend = v := by simpa [hstep] using hv
  exact ⟨runPulses_succ_of_step h.run hstep, hway hk⟩

/-- The state after the last pulse of an instruction other than BRK. -/
def State.completed (s : State) : State := s.tick.interruptCheck.finishPulse

theorem State.Within.last {s t : State} {i : Instr} {k : Nat} (h : s.Within i k t)
    (hk : k + 1 = stepCount i) (hb : i ≠ .brk) : runPulses (k + 1) s = .next t.completed :=
  runPulses_succ_of_step h.run
    (step_underway_of_exec h.underway (exec_interruptCheck hb (h.step_tick.trans hk)))

@[simp] theorem State.completed_pc (s : State) : s.completed.pc = s.pc := s.tick.interruptCheck.finishPulse_pc
@[simp] theorem State.completed_sp (s : State) : s.completed.sp = s.sp := s.tick.interruptCheck.finishPulse_sp
@[simp] theorem State.completed_acc (s : State) : s.completed.acc = s.acc :=
  s.tick.interruptCheck.finishPulse_acc
@[simp] theorem State.completed_xReg (s : State) : s.completed.xReg = s.xReg :=
  s.tick.interruptCheck.finishPulse_xReg
@[simp] theorem State.completed_yReg (s : State) : s.completed.yReg = s.yReg :=
  s.tick.interruptCheck.finishPulse_yReg
@[simp] theorem State.completed_mem (s : State) : s.completed.mem = s.mem :=
  s.tick.interruptCheck.finishPulse_mem
@[simp] theorem State.completed_reports (s : State) : s.completed.reports = s.reports :=
  s.tick.interruptCheck.finishPulse_reports
@[simp] theorem State.completed_console (s : State) : s.completed.console = s.console :=
  s.tick.interruptCheck.finishPulse_console

/-- The pending flag at the end of an instruction is that of the answer to its last pulse. -/
theorem State.Within.completed_sReg {s t : State} {i : Instr} {k : Nat} (h : s.Within i k t) :
    t.completed.sReg = if s.irqAt (k + 1) = true then .I else t.sReg := by
  have hirq : t.irqAt 1 = s.irqAt (k + 1) := by
    simpa [Nat.add_comm] using (runPulses_host h.run).2.2 0
  rw [← hirq, t.irqAt_one, State.completed, State.finishPulse_sReg, State.interruptCheck_eq]
  rfl

/-- A completed instruction other than BRK leaves the machine at an instruction boundary, and the next
fetch reads the cell after `pc`. -/
theorem State.Within.completed_atFetch {s t : State} {i : Instr} {k : Nat} (h : s.Within i k t) :
    t.completed.atFetch ∧ t.completed.entryAddr = nextAddr t.pc := by
  obtain ⟨hstep, hb1, hb2, hop⟩ := State.finishPulse_completed (s := t.tick.interruptCheck) rfl
  have hB : t.completed.sReg ≠ .B := by
    rw [h.completed_sReg]
    split
    · decide
    · exact h.underway.noBreak
  have hhalt : t.completed.halted = false :=
    (State.finishPulse_of_noBreak (by simpa [State.completed] using hB)).1.trans h.underway.running
  have hcycle : t.completed.cycle = t.cycle + 1 := (State.sameHost_finishPulse _).cycle
  exact ⟨⟨hhalt, hstep, hb1, hb2, hop, hB⟩, by simp [State.entryAddr, hcycle]⟩

/-! ### The step count and `pc` of every instruction -/

theorem length_le_stepCount (i : Instr) : i.length ≤ stepCount i := by cases i <;> decide

/-- A handler other than BNE's moves `pc` on by one at the steps that read an operand cell, and leaves it
alone at all others. -/
theorem exec_pc {i : Instr} {s t : State} (h : exec i s = .next t) (hb : i ≠ .bne) :
    t.pc = if 2 ≤ s.step ∧ s.step ≤ i.length then nextAddr s.pc else s.pc := by
  have decodes : 2 ≤ s.step ∧ s.step ≤ i.length ↔
      (i.format = .imm ∧ s.step = 2) ∨ (i.format = .abs ∧ (s.step = 2 ∨ s.step = 3)) := by
    cases hf : i.format <;> simp [Instr.length, hf, Format.operandCells] <;> omega
  split
  case isTrue hd =>
    rcases decodes.1 hd with ⟨hf, h2⟩ | ⟨hf, h23⟩
    · rw [exec_decodeImm hf h2] at h
      cases h
      rfl
    · rw [exec_decodeAbs hf h23] at h
      cases h
      rw [State.decodeAbs_eq]
  case isFalse hd =>
    rcases (exec_cases h).pc with ⟨hd', -⟩ | ⟨rfl, -⟩ | hsame
    · exact absurd (decodes.2 hd') hd
    · exact absurd rfl hb
    · exact hsame

/-- Of all instructions under way, only BRK halts, and in its last pulse. -/
theorem halted_iff_of_last {i : Instr} {k : Nat} {s t : State} (h : s.Underway i k)
    (hk : k + 1 = stepCount i) (ht : step s = .next t) : t.halted = true ↔ i = .brk := by
  have h0 : s.step ≠ 0 := h.step_eq ▸ h.started
  obtain ⟨-, -, hnoFlag, hsources, -⟩ := haltCheckSendsTheShutdownRequest s t ht
  constructor
  · intro hhalt
    have hB : t.sReg = .B := by
      by_contra hB
      simp [(hnoFlag h0 hB).1] at hhalt
    rcases (hsources h.noBreak hB).2 with hl | ⟨hl, -⟩
    · exact absurd (h.row.symm.trans hl) nofun
    · exact Option.some.inj (h.row.symm.trans hl)
  · rintro rfl
    obtain ⟨u, hu, hhalt, -⟩ := (breakHaltsOnItsThirdPulse s).2.2 h.running (by
      rw [h.step_eq]
      exact Nat.succ.inj hk) h.row
    obtain rfl : u = t := by simpa [hu] using ht
    exact hhalt

/-- Settles O54: before its last pulse the instruction is under way, and the last one completes it. -/
theorem everyInstructionTakesItsStepCount : Obligations.EveryInstructionTakesItsStepCount := by
  intro s i h hi
  refine ⟨fun k h0 hk => ?before, ?last⟩
  case before =>
    obtain ⟨k, rfl⟩ := Nat.exists_eq_succ_of_ne_zero h0.ne'
    obtain ⟨u, hu⟩ := State.Within.exists h hi hk
    exact ⟨u, hu.run, hu.underway.step_eq, hu.underway.incomplete, hu.underway.running⟩
  case last =>
    obtain ⟨k, hk⟩ : ∃ k, k + 2 = stepCount i := ⟨stepCount i - 2, by cases i <;> rfl⟩
    obtain ⟨t, ht⟩ := State.Within.exists h hi (k := k) (by omega)
    obtain ⟨u, hu⟩ := exec_isNext i t.tick
    have hstep := step_underway_of_exec ht.underway hu
    have hrun := runPulses_succ_of_step ht.run hstep
    obtain ⟨h0, hb1, hb2, hop⟩ :=
      State.finishPulse_completed (exec_last_completes hu (ht.step_tick.trans hk))
    rw [← hk]
    exact ⟨_, hrun, h0, hb1, hb2, hop, (runPulses_host hrun).1, halted_iff_of_last ht.underway hk hstep⟩

/-- Where `pc` stands after pulse `k` of an instruction that began in `s`: the first pulse reads the
opcode cell, and each of the next ones an operand cell while there are any. -/
def State.PcWithin (s : State) (i : Instr) (k : Nat) (t : State) : Prop :=
  t.pc.toNat = (s.entryAddr.toNat + min (k - 1) (i.length - 1)) % 65536

theorem step_pcWithin {s t u : State} {i : Instr} {k : Nat} (hb : i ≠ .bne) (hway : t.Underway i k)
    (h : s.PcWithin i k t) (hu : step t = .next u) : s.PcWithin i (k + 1) u := by
  obtain ⟨v, hv⟩ := exec_isNext i t.tick
  obtain rfl : v.finishPulse = u := by simpa [step_underway_of_exec hway hv] using hu
  have hk := hway.started
  rw [State.PcWithin] at h ⊢
  rw [State.finishPulse_pc, exec_pc hv hb, State.tick_step, hway.step_eq, State.tick_pc]
  split
  · rw [nextAddr, lo16_toNat, h]
    omega
  · rw [h]
    congr 2
    omega

/-- Settles O55: `pc` stands at the last cell from the pulse on that reads it. -/
theorem everyInstructionLeavesThePcAtItsLastCell :
    Obligations.EveryInstructionLeavesThePcAtItsLastCell := by
  intro s i h hi hb
  have hfetch : s.PcWithin i 1 s.tick.fetchPulse := by
    rw [State.PcWithin, (State.tick_fetchPulse_of_step_zero h.2.1).2.1]
    exact (Nat.mod_eq_of_lt s.entryAddr.isLt).symm
  obtain ⟨t, hrun, hpc⟩ := runPulses_instruction_induction h hi hfetch fun _ _ _ => step_pcWithin hb
  rw [State.PcWithin, Nat.min_eq_right (Nat.sub_le_sub_right (length_le_stepCount i) 1)] at hpc
  exact ⟨t, hrun, hpc⟩

end Sys2Proof.Machine
end

section
/-! PROOF. BNE, ADC, INC, STA and CPX from fetch to completion (spec/42_arith_compare.md,
43_control_system.md), and the next instruction after STA and after CPX (spec/20_memory.md rule R61,
spec/70_reset_and_hazards.md rule R216). -/

namespace Sys2Proof.Machine

open Sys2Proof

/-! ### Operand decoding -/

/-- `t` has the registers other than `pc` and `sp`, the store, the console and the reports of `s`. -/
structure State.SameData (s t : State) : Prop where
  acc     : t.acc = s.acc
  xReg    : t.xReg = s.xReg
  yReg    : t.yReg = s.yReg
  sReg    : t.sReg = s.sReg
  mem     : t.mem = s.mem
  console : t.console = s.console
  reports : t.reports = s.reports

theorem State.SameData.memRead {s t : State} (h : s.SameData t) (a : Addr) : t.memRead a = s.memRead a :=
  State.memRead_congr h.mem a

/-- The address that the two cells after the next opcode cell compose (rule R98). -/
def State.operandAddr (s : State) : Addr :=
  compose (s.memRead (nextAddr s.entryAddr)) (s.memRead (nextAddr (nextAddr s.entryAddr)))

/-- Three pulses into an instruction with an address, `pc` is at its last cell and `sp` is the address. -/
theorem within_address {s : State} {i : Instr} (h : s.atFetch) (hi : s.nextRow = some i)
    (hf : i.format = .abs) :
    ∃ t, s.Within i 3 t ∧ t.pc = nextAddr (nextAddr s.entryAddr) ∧ t.sp = s.operandAddr ∧
      s.SameData t := by
  have h5 := five_le_stepCount_of_abs hf
  have hfetch := State.Within.fetch h hi
  obtain ⟨-, h0, hb1, -⟩ := h
  obtain ⟨-, hpc, -⟩ := State.tick_fetchPulse_of_step_zero h0
  have hlow := hfetch.next (by omega) ((addressDecodePulses i _ hf (.inl hfetch.step_tick)).1 hb1)
  have hhigh := hlow.next (by omega) ((addressDecodePulses i _ hf (.inr hlow.step_tick)).2 _ rfl)
  refine ⟨_, hhigh, ?_, ?_, ⟨rfl, rfl, rfl, rfl, rfl, rfl, rfl⟩⟩
  · rw [← hpc]
    rfl
  · rw [State.operandAddr, ← hpc]
    rfl

/-- Two pulses into an instruction with one operand cell, `pc` is at that cell, which is latched. -/
theorem within_immediate {s : State} {i : Instr} (h : s.atFetch) (hi : s.nextRow = some i)
    (hf : i.format = .imm) :
    ∃ t, s.Within i 2 t ∧ t.pc = nextAddr s.entryAddr ∧ t.sp = s.sp ∧
      t.decodedByte1 = some (s.memRead (nextAddr s.entryAddr)) ∧ s.SameData t := by
  have h4 : 4 ≤ stepCount i := by simp [stepCount_eq, hf]
  have hfetch := State.Within.fetch h hi
  obtain ⟨-, hpc, -⟩ := State.tick_fetchPulse_of_step_zero h.2.1
  have hdecode := hfetch.next (by omega) (exec_decodeImm hf hfetch.step_tick)
  refine ⟨_, hdecode, ?_, rfl, ?_, ⟨rfl, rfl, rfl, rfl, rfl, rfl, rfl⟩⟩
  · rw [← hpc]
    rfl
  · rw [← hpc]
    rfl

/-! ### The statements -/

/-- BNE's action on a latched operand, with both outcomes of the test in one. -/
theorem exec_bne_action {s : State} {k : Nat} (h3 : s.step = 3) (hk : s.decodedByte1 = some k) :
    exec .bne s = .next (s.setPc (if s.sReg = .Z then s.pc else branchTarget s.pc k)) := by
  obtain ⟨hstay, hmove⟩ := branchActionMovesBackUnlessZero s k h3 hk
  by_cases hZ : s.sReg = .Z
  · rw [hstay hZ, if_pos hZ]
    rfl
  · rw [hmove hZ, if_neg hZ]
    rfl

/-- Settles O56: fetch and decode, the branch, the interrupt check. -/
theorem wholeBranch : Obligations.WholeBranch := by
  intro s h hi
  obtain ⟨t, ht, hpc, hsp, hb1, hdata⟩ := within_immediate h hi rfl
  have hacted := ht.next (by decide) (exec_bne_action ht.step_tick hb1)
  refine ⟨_, hacted.last rfl nofun, fun hZ => ?_, fun hZ => ?_, hacted.completed_sReg.trans ?_, ?_⟩
  · simp [hdata.sReg, hZ, hpc]
  · simp [hdata.sReg, hZ, hpc, branchTarget, branchDistance]
  · simp [hdata.sReg]
  · simp [hdata.acc, hdata.xReg, hdata.yReg, hdata.mem, hsp]

/-- Settles O57: fetch and address decode, the sum with its flag rule, the interrupt check. -/
theorem wholeAddition : Obligations.WholeAddition := by
  intro s a sum h hi ha hsum
  obtain ⟨t, ht, -, hsp, hdata⟩ := within_address h hi rfl
  have hspa : t.sp = a := hsp.trans ha.symm
  have hadd : exec .adc t.tick = .next (t.tick.setAcc sum).overflowFlag := by
    rw [exec_adc, absSchedule_action ht.step_tick, hsum, ← hspa, ← hdata.acc, ← hdata.memRead]
    rfl
  have hacted := ht.next (by decide) hadd
  refine ⟨_, hacted.last rfl nofun, ?_⟩
  rw [hacted.completed_sReg, hacted.completed_atFetch.1.1]
  simp [State.overflowFlag_eq, adcLimit, hspa, hdata.xReg, hdata.yReg, hdata.sReg, hdata.mem, hdata.console,
    hdata.reports]

/-- INC before its last pulse: read, incremented and written back. -/
theorem within_increment {s : State} (h : s.atFetch) (hi : s.nextRow = some .inc) :
    ∃ t, s.Within .inc 6 t ∧ t.acc = s.memRead s.operandAddr + 1 ∧ t.sp = s.operandAddr ∧
      t.mem = (s.memWrite s.operandAddr (s.memRead s.operandAddr + 1)).mem ∧ t.xReg = s.xReg ∧
      t.yReg = s.yReg ∧ t.reports = s.reports ∧ t.console = s.console ∧ t.sReg = s.sReg := by
  obtain ⟨t, ht, -, hsp, hdata⟩ := within_address h hi rfl
  have hcell : t.tick.memRead s.operandAddr = s.memRead s.operandAddr := hdata.memRead _
  have hread := ht.next (by decide) ((exec_inc _).trans (rmwSchedule_read ht.step_tick))
  have hmodify := hread.next (by decide) ((exec_inc _).trans (rmwSchedule_modify hread.step_tick))
  have hwrite := hmodify.next (by decide) ((exec_inc _).trans (rmwSchedule_write hmodify.step_tick))
  refine ⟨_, hwrite, ?_⟩
  simp [hcell, hsp, hdata.mem, hdata.xReg, hdata.yReg, hdata.reports, hdata.console, hdata.sReg]

/-- Settles O58: the pulses up to the write, the interrupt check, and what a write to the store does. -/
theorem wholeIncrement : Obligations.WholeIncrement := by
  intro s a h hwf hi ha
  obtain rfl : s.operandAddr = a := ha.symm
  obtain ⟨t, ht, hacc, hsp, hmem, hx, hy, hreports, hconsole, hflag⟩ := within_increment h hi
  obtain ⟨hsame, hother, -, -⟩ := State.memWrite_spec hwf s.operandAddr (s.memRead s.operandAddr + 1)
  have hread := State.memRead_congr (t.completed_mem.trans hmem)
  refine ⟨_, ht.last rfl nofun, ?_, (hread _).trans hsame, fun b hb => (hread b).trans (hother b hb), ?_⟩
  · simp [hacc]
  · simp [hsp, hx, hy, hreports, hconsole, ht.completed_sReg, hflag]

/-- Settles O59: STA's write, then the fetch after it, which reads the store that STA left. -/
theorem storeIsSeenByTheNextFetch : Obligations.StoreIsSeenByTheNextFetch := by
  intro s a n h hwf hi ha hn
  obtain rfl : s.operandAddr = a := ha.symm
  obtain ⟨t, ht, hpc, hsp, hdata⟩ := within_address h hi rfl
  have hstore := ht.next (by decide) ((exec_sta _).trans (absSchedule_action ht.step_tick))
  obtain ⟨⟨hrun, h0, -⟩, hentry⟩ := hstore.completed_atFetch
  obtain ⟨hstep, hpc', hir⟩ := State.tick_fetchPulse_of_step_zero h0
  rw [State.traceAppend_pc, State.memWrite_pc, State.tick_pc, hpc, ← hn] at hentry
  rw [hentry] at hpc' hir
  refine ⟨_, runPulses_succ_of_step (hstore.last rfl nofun) (step_fetch hrun h0), hstep, hpc', hir.trans ?_⟩
  rw [State.memRead_congr (t := s.memWrite s.operandAddr s.acc) (by simp [hsp, hdata.mem, hdata.acc])]
  split
  case isTrue heq => rw [heq, State.memRead_memWrite_same hwf]
  case isFalse hne => exact s.memRead_memWrite_other _ hne

/-- CPX from fetch to completion: the next fetch reads the cell after its own, the store is as it was, and
a non-empty input at its last pulse has displaced whatever its compare wrote. -/
theorem runPulses_compare {s : State} (h : s.atFetch) (hi : s.nextRow = some .cpx) :
    ∃ t, runPulses 5 s = .next t ∧ t.atFetch ∧
      t.entryAddr = nextAddr (nextAddr (nextAddr s.entryAddr)) ∧ t.mem = s.mem ∧
      (s.irqAt 5 = true → t.sReg = .I) := by
  obtain ⟨t, ht, hpc, -, hdata⟩ := within_address h hi rfl
  have hcompare := ht.next (by decide) ((exec_cpx _).trans (absSchedule_action ht.step_tick))
  rw [State.compareFlag_eq] at hcompare
  obtain ⟨hnext, hentry⟩ := hcompare.completed_atFetch
  refine ⟨_, hcompare.last rfl nofun, hnext, hentry.trans ?_, ?_, fun hirq => ?_⟩
  · simp [hpc]
  · simp [hdata.mem]
  · exact hcompare.completed_sReg.trans (if_pos hirq)

/-- Settles O60: the BNE after CPX begins with the pending flag, which is not `Z`. -/
theorem pendingInterruptMakesTheBranchTaken : Obligations.PendingInterruptMakesTheBranchTaken := by
  intro s p h hi hirq hp hbne
  obtain ⟨t, hrun, hnext, hentry, hmem, hflag⟩ := runPulses_compare h hi
  have hread := State.memRead_congr hmem
  have hrow : t.nextRow = some .bne := by
    rw [State.nextRow, (runPulses_host hrun).2.1, hread, hentry, hbne]
  obtain ⟨u, hu, -, hpc, -⟩ := wholeBranch t hnext hrow
  refine ⟨u, (runPulses_add 5 4 s t hrun).trans hu, ?_⟩
  rw [hpc (by simp [hflag hirq]), hread, hentry, ← hp]

end Sys2Proof.Machine
end
